-- ==== Sys2Proof/Word.lean ====
section
/-! DEFINITION. The word types of the block: bytes, the 12-bit command word, the 9-bit response word and the
10-bit transmit frame (00_scope.md R11, 30_encoding.md R80, R84, R85). -/

namespace Sys2Proof

/-- A byte: 8 bits (R11). -/
abbrev Byte := BitVec 8

/-- The command word `{op[3:0], d[7:0]}` (R84). -/
abbrev CmdWord := BitVec 12

/-- The response word `{none, v[7:0]}` (R85). -/
abbrev RspWord := BitVec 9

/-- The value of the transmit shift register: a frame of ten bits (R80). -/
abbrev FrameWord := BitVec 10

/-- The 8-bit value that stands for a registered callback; 0x00 is the no-op (R39). -/
abbrev Handle := BitVec 8

/-- The level of a pin or line: `true` is 1 (high, mark, idle), `false` is 0 (low, space) (R11, R82). -/
abbrev Level := Bool

end Sys2Proof
end

