-- ==== Sys2Proof/Config.lean ====
section
/-! DEFINITION. The build-time parameters of an instance (00_scope.md R5), the names of the build-time errors
(60_exceptions.md R201), what the environment can do (10_state.md R48, R49), and the values the spec leaves free. -/

namespace Sys2Proof

/-- The parameters of R5, all fixed at build time. Their legal values are `Config.errors` (Machine/Params.lean). -/
structure Config where
  /-- `BAUD`: nominal bit rate, bits per second. -/
  baud : Nat
  /-- `F`: oversample factor, timebase ticks per bit period. -/
  f : Nat
  /-- `N_TX`: capacity of the transmit queue, bytes. -/
  nTx : Nat
  /-- `N_RX`: number of slots of the receive ring. -/
  nRx : Nat
  /-- `TX_ONLY`: the transmit-only variant. -/
  txOnly : Bool
  /-- `F_CLK`: frequency in Hz of the clock the divider counts. -/
  fClk : Nat
  /-- `TIMER_TOP_MAX`: largest terminal count the divider can hold. -/
  timerTopMax : Nat
  /-- The pin and timer bindings: an opaque number, read by no rule. -/
  binding : Nat
  deriving DecidableEq, Repr

/-- The build-time errors of R201. None occurs at run time: for such a configuration the block does not exist (R9). -/
inductive ConfigError
  /-- CE1: F < 3. -/
  | oversampleTooSmall
  /-- CE2: F > 170. -/
  | oversampleTooLarge
  /-- CE3: not TX_ONLY and N_RX > 128. -/
  | rxCapacityTooLarge
  /-- CE4: not TX_ONLY and N_RX < 2. -/
  | rxCapacityTooSmall
  /-- CE5: N_TX < 1. -/
  | txCapacityZero
  /-- CE6: TOP > TIMER_TOP_MAX. -/
  | timerTopOutOfRange
  /-- CE7: DIVISOR = 0, or BAUD = 0, or F_CLK = 0. -/
  | timerDivisorZero
  deriving DecidableEq, Repr

/-- What the receive pin carries (R49, R91): an unconstrained level (U4), a level held by the environment, or a
zero-delay wire from the transmit pad (D33). -/
inductive Line
  | free
  | level (v : Level)
  | loopback
  deriving DecidableEq, Repr

/-- What the environment does next (R10, R48, R49): whose step it is, or a change of an input. One stimulus is one
step of the model (log 3). -/
inductive Stimulus
  /-- A rising edge of `clk_i` (R103). -/
  | clock
  /-- A step of the foreground agent (R218). -/
  | foreground
  /-- `hook_done_i`: the hook body that runs has returned (R172). -/
  | hookDone
  /-- The caller offers one more command word at the port (R84). -/
  | offer (w : CmdWord)
  /-- The receive line changes its source (R91, `.rx` and `.loopback`). -/
  | setLine (l : Line)
  /-- An external device pulls the transmit line low, or releases it (R183, `.ext`). -/
  | setExtLow (b : Bool)
  /-- `rst_i` is asserted (R230). -/
  | reset
  deriving DecidableEq, Repr, Inhabited

/-- Free value (U8, log 3): the stimulus of step `n` where the script lists none. Nothing constrains it. -/
opaque Config.freeStimulus : Nat → Stimulus

/-- Free value (U4, log 8): the level of `rx_i` in step `n` where the environment does not hold the line. -/
opaque Config.freeRxLevel : Nat → Level

/-- Free value (U5, U6, log 9): the level of the transmit pad in step `n` under contention or when floating. -/
opaque Config.freePadLevel : Nat → Level

/-- DESIGN CHOICE (log 1): the instance that State.reset stands for. F, N_TX, N_RX and TX_ONLY are those of
95_test_vectors.md section 1, F_CLK and BAUD those of R101's first worked example, TIMER_TOP_MAX that of R102's. -/
def Config.sample : Config where
  baud := 9600
  f := 3
  nTx := 4
  nRx := 8
  txOnly := false
  fClk := 1000000
  timerTopMax := 255
  binding := 0

end Sys2Proof
end

