-- ==== Sys2Proof/Machine/Params.lean ====
section
/-! DEFINITION. The constants derived from the parameters (40_timebase.md R101, 42_receive.md R141) and the
build-time check (60_exceptions.md R201, 40_timebase.md R102). -/

namespace Sys2Proof

/-- `R_TICK = BAUD × F`, the nominal tick rate in Hz (R100). -/
def Config.rTick (c : Config) : Nat := c.baud * c.f

/-- `DIVISOR`: `F_CLK / R_TICK` rounded to nearest, ties upward (R101). It is 0 when `R_TICK` is 0. -/
def Config.divisor (c : Config) : Nat := (2 * c.fClk + c.rTick) / (2 * c.rTick)

/-- `TOP = DIVISOR - 1`, the terminal count of `div_cnt` (R101). -/
def Config.top (c : Config) : Nat := c.divisor - 1

/-- `RX_START_DELAY = F + (F div 2)` (R141). -/
def Config.rxStartDelay (c : Config) : Nat := c.f + c.f / 2

/-- Every build-time error the configuration has, in the order of R201's table. -/
def Config.errors (c : Config) : List ConfigError :=
  (if c.f < 3 then [.oversampleTooSmall] else []) ++
  (if 170 < c.f then [.oversampleTooLarge] else []) ++
  (if c.txOnly = false ∧ 128 < c.nRx then [.rxCapacityTooLarge] else []) ++
  (if c.txOnly = false ∧ c.nRx < 2 then [.rxCapacityTooSmall] else []) ++
  (if c.nTx < 1 then [.txCapacityZero] else []) ++
  (if c.timerTopMax < c.top then [.timerTopOutOfRange] else []) ++
  (if c.divisor = 0 ∨ c.baud = 0 ∨ c.fClk = 0 then [.timerDivisorZero] else [])

/-- The error an illegal configuration is rejected with: the first of the table that applies (log 2). -/
def Config.check (c : Config) : Option ConfigError := c.errors.head?

end Sys2Proof
end

