-- ==== Sys2Proof/Syntax.lean ====
section
/-! DEFINITION. The commands of the block, one constructor per row of spec/opcode_table.json (30_encoding.md R86). -/

namespace Sys2Proof

/-- The sixteen rows of the opcode map (R86). Only the three commands whose operand byte `d` is used carry it; the
operand bits of the others are ignored (R88). -/
inductive Instr
  /-- 0x0 BEGIN (R190). -/
  | beginCmd
  /-- 0x1 END (R191). -/
  | endCmd
  /-- 0x2 ENQUEUE, with its data byte (R120). -/
  | enqueue (d : Byte)
  /-- 0x3 FLUSH (R121). -/
  | flush
  /-- 0x4 IS_BUSY (R122). -/
  | isBusy
  /-- 0x5 AVAILABLE (R146). -/
  | available
  /-- 0x6 READ (R147). -/
  | read
  /-- 0x7 PEEK (R148). -/
  | peek
  /-- 0x8 RX_ENABLE (R149). -/
  | rxEnable
  /-- 0x9 RX_DISABLE (R150). -/
  | rxDisable
  /-- 0xA SENSE_BEGIN (R180). -/
  | senseBegin
  /-- 0xB SENSE_END (R181). -/
  | senseEnd
  /-- 0xC READ_PIN (R182). -/
  | readPin
  /-- 0xD SET_TICK_HOOK, with its handle (R170). -/
  | setTickHook (h : Handle)
  /-- 0xE SET_IDLE_HOOK, with its handle (R171). -/
  | setIdleHook (h : Handle)
  /-- 0xF, the reserved opcode (R87). -/
  | reservedF
  deriving DecidableEq, Repr

/-- The five blocking commands (R218): the only ones that may spin. -/
def Instr.blocking : Instr → Bool
  | .endCmd => true
  | .enqueue _ => true
  | .flush => true
  | .rxDisable => true
  | .senseBegin => true
  | .beginCmd => false
  | .isBusy => false
  | .available => false
  | .read => false
  | .peek => false
  | .rxEnable => false
  | .senseEnd => false
  | .readPin => false
  | .setTickHook _ => false
  | .setIdleHook _ => false
  | .reservedF => false

/-- The commands whose operand byte `d` is used; the others ignore it (R86, R88). -/
def Instr.usesOperand : Instr → Bool
  | .enqueue _ => true
  | .setTickHook _ => true
  | .setIdleHook _ => true
  | .beginCmd => false
  | .endCmd => false
  | .flush => false
  | .isBusy => false
  | .available => false
  | .read => false
  | .peek => false
  | .rxEnable => false
  | .rxDisable => false
  | .senseBegin => false
  | .senseEnd => false
  | .readPin => false
  | .reservedF => false

end Sys2Proof
end

