-- ==== Sys2Proof/WellFormed.lean ====
section
/-! DEFINITION. What a legal instance and a well-formed command are (00_scope.md R5, 30_encoding.md R88). -/

namespace Sys2Proof

/-- The configuration has no build-time error (R5, R201): the instance exists. -/
def Config.wellFormed (c : Config) : Bool := c.check.isNone

/-- Every command is well-formed: its one operand is a byte, and each of the 256 values is legal (R120 (f),
R170 (c), R171). -/
def Instr.wellFormed : Instr → Bool
  | .beginCmd => true
  | .endCmd => true
  | .enqueue _ => true
  | .flush => true
  | .isBusy => true
  | .available => true
  | .read => true
  | .peek => true
  | .rxEnable => true
  | .rxDisable => true
  | .senseBegin => true
  | .senseEnd => true
  | .readPin => true
  | .setTickHook _ => true
  | .setIdleHook _ => true
  | .reservedF => true

end Sys2Proof
end

