-- ==== Sys2Proof/Decode.lean ====
section
/-! DEFINITION. Decoding and encoding of the command word (30_encoding.md R84, R86 to R88). -/

namespace Sys2Proof

/-- Bits 7:0 of a command word, the operand byte `d` (R84). -/
def operandField (w : CmdWord) : Byte := w.extractLsb' 0 8

/-- Bits 11:8 of a command word, the opcode `op` (R84). -/
def opcodeField (w : CmdWord) : BitVec 4 := w.extractLsb' 8 4

/-- The opcode map of R86, read on the four bits of `op`, the most significant first. It is total: opcode 0xF is the
reserved row (R87), and the operand bits of a command that has no operand are ignored (R88). -/
def decode (w : CmdWord) : Instr :=
  match w.getLsbD 11, w.getLsbD 10, w.getLsbD 9, w.getLsbD 8 with
  | false, false, false, false => .beginCmd
  | false, false, false, true => .endCmd
  | false, false, true, false => .enqueue (operandField w)
  | false, false, true, true => .flush
  | false, true, false, false => .isBusy
  | false, true, false, true => .available
  | false, true, true, false => .read
  | false, true, true, true => .peek
  | true, false, false, false => .rxEnable
  | true, false, false, true => .rxDisable
  | true, false, true, false => .senseBegin
  | true, false, true, true => .senseEnd
  | true, true, false, false => .readPin
  | true, true, false, true => .setTickHook (operandField w)
  | true, true, true, false => .setIdleHook (operandField w)
  | true, true, true, true => .reservedF

/-- Why a number is no command word. -/
inductive DecodeError
  /-- The port is 12 bits wide (R84, R89: every command is one 12-bit word), and the number has a bit above them. -/
  | widerThanTwelveBits
  deriving DecidableEq, Repr

/-- Decoding of any number: rejected by name when it has a bit outside the 12-bit word. -/
def decodeNat (w : Nat) : Except DecodeError Instr :=
  if w < 4096 then .ok (decode (BitVec.ofNat 12 w)) else .error .widerThanTwelveBits

/-- The instruction read from a word numbered as spec/opcode_table.json numbers it (log 16): of `w`, the `nbits` bits
the table gives the row; the bits above them are 0. -/
def decodeTableWord (nbits w : Nat) : Option Instr :=
  match decodeNat (w % 2 ^ nbits) with
  | .ok i => some i
  | .error _ => none

/-- The `op` of a command (R86). -/
def Instr.opcode : Instr → BitVec 4
  | .beginCmd => 0x0#4
  | .endCmd => 0x1#4
  | .enqueue _ => 0x2#4
  | .flush => 0x3#4
  | .isBusy => 0x4#4
  | .available => 0x5#4
  | .read => 0x6#4
  | .peek => 0x7#4
  | .rxEnable => 0x8#4
  | .rxDisable => 0x9#4
  | .senseBegin => 0xA#4
  | .senseEnd => 0xB#4
  | .readPin => 0xC#4
  | .setTickHook _ => 0xD#4
  | .setIdleHook _ => 0xE#4
  | .reservedF => 0xF#4

/-- The `d` of a command's canonical word: its operand, or 0x00 where the operand is unused (R88). -/
def Instr.operand : Instr → Byte
  | .enqueue d => d
  | .setTickHook h => h
  | .setIdleHook h => h
  | .beginCmd => 0
  | .endCmd => 0
  | .flush => 0
  | .isBusy => 0
  | .available => 0
  | .read => 0
  | .peek => 0
  | .rxEnable => 0
  | .rxDisable => 0
  | .senseBegin => 0
  | .senseEnd => 0
  | .readPin => 0
  | .reservedF => 0

/-- The canonical word of a command: `{op, d}` (R84, R88). -/
def encode (i : Instr) : CmdWord := i.opcode ++ i.operand

/-- A word is canonical when its unused operand bits are zero (R88). -/
def canonicalWord (w : CmdWord) : Bool := encode (decode w) == w

end Sys2Proof
end

