-- ==== Sys2Proof/Machine/State.lean ====
section
/-! DEFINITION. The state of the block (10_state.md R20 to R41), the environment's plain data, and the outcomes. -/

namespace Sys2Proof.Machine

/-- The receive ring's storage, or any part of it: (slot, byte) pairs with strictly rising slots. A slot that is not
listed holds no value (R34, log 11). -/
abbrev Memory := List Host.Cell

/-- The canonical form of a memory: slots strictly rising. No entry can equal what an unlisted slot reads as, since
an unlisted slot has no value. -/
abbrev Memory.wf (m : Memory) : Prop := m.Pairwise (fun a b => a.1 < b.1)

/-- The transmit side (R21 to R26). -/
structure Tx where
  /-- `TXQ` (R21): the pending bytes, oldest first. -/
  queue : List Byte
  /-- `tx_shift` (R22): the rest of the frame being sent; 0 is empty. -/
  shift : FrameWord
  /-- `tx_sub` (R23): ticks for which the bit on the pin is still held. -/
  sub : BitVec 8
  /-- `tx_busy` (R24). -/
  busy : Bool
  /-- `tx_out` (R25): the pin's output latch. -/
  out : Level
  /-- `tx_oe` (R26): the pin is a driven output. -/
  oe : Bool
  /-- `tx_pu` (R26): the pin's pull-up. -/
  pu : Bool
  deriving DecidableEq, Repr

/-- `rx_state` (R27). -/
inductive RxState
  | idle
  | inCharacter
  | awaitingStopBit
  deriving DecidableEq, Repr

/-- The receive side (R27 to R36). In the TX_ONLY variant it does not exist: nothing reads or writes it (log 13). -/
structure Rx where
  /-- `rx_state` (R27). -/
  state : RxState
  /-- `rx_bits` (R28): data bits not yet sampled. -/
  bits : BitVec 4
  /-- `rx_mask` (R29): position of the data bit to be sampled next. -/
  mask : BitVec 8
  /-- `rx_acc` (R30): the data bits sampled so far. -/
  acc : Byte
  /-- `rx_sub` (R31): ticks before the next sample. -/
  sub : BitVec 8
  /-- `rx_busy` (R32). -/
  busy : Bool
  /-- `rx_disabled` (R33). -/
  disabled : Bool
  /-- `rx_buf` (R34): the ring's storage. -/
  buf : Memory
  /-- `rx_in` (R35): the producer index. -/
  inIdx : BitVec 8
  /-- `rx_out` (R36): the consumer index. -/
  outIdx : BitVec 8
  deriving DecidableEq, Repr

/-- The phase of a blocking command (R41, R218). Only END has a second one (R191). -/
inductive Phase
  | zero
  | one
  deriving DecidableEq, Repr

/-- `fg` (R41): no command in progress, or one that spins. The operand byte stands in the command. -/
inductive Fg
  | ready
  | spin (c : Instr) (p : Phase)
  deriving DecidableEq, Repr

/-- The observable event of a step (R85, R172): at most one occurs per step. -/
inductive Event
  /-- A command completes with this response word (`rsp_valid_o`, `rsp_word_o`). -/
  | response (w : RspWord)
  /-- `TickHook(h)` (`tick_hook_stb_o`, `tick_hook_id_o`). -/
  | tickHook (h : Handle)
  /-- `IdleHook(h)` (`idle_hook_stb_o`, `idle_hook_id_o`). -/
  | idleHook (h : Handle)
  deriving DecidableEq, Repr

/-- The environment's plain data (R48): not elements of R20 (log 3, log 8, log 17, log 20). -/
structure Env where
  /-- The stimuli still to come, in order. When none is left the next stimulus is a free value. -/
  script : List Stimulus
  /-- The command words the caller offers, in order; the head is on `cmd_word_i`, and `cmd_valid_i` is 1 while
  there is one. -/
  port : List CmdWord
  /-- What `rx_i` carries. -/
  line : Line
  /-- An external device pulls the transmit line low (R183). -/
  extLow : Bool
  /-- The number of steps taken; it indexes the free values. -/
  now : Nat
  deriving DecidableEq, Repr

/-- The complete state: the twenty-two elements of R20, the instance's parameters, and the model's own fields. -/
structure State where
  /-- The instance's parameters (R5); no step changes them (log 1). -/
  cfg : Config
  /-- R21 to R26. -/
  tx : Tx
  /-- R27 to R36. -/
  rx : Rx
  /-- `timer_run` (R37). -/
  timerRun : Bool
  /-- `div_cnt` (R38). -/
  divCnt : Nat
  /-- `tick_hook` (R39). -/
  tickHook : Handle
  /-- `idle_hook` (R40). -/
  idleHook : Handle
  /-- `fg` (R41). -/
  fg : Fg
  /-- A tick-hook body runs: invoked and not yet answered by `hook_done_i` (R172, log 5). -/
  tickRun : Bool
  /-- An idle-hook body runs (R172, R239, log 5). -/
  idleRun : Bool
  /-- The event of the latest step (log 18). -/
  out : Option Event
  /-- The environment. -/
  env : Env
  deriving DecidableEq, Repr

/-- Why the machine stops with a fault. The block has no run-time error of its own (R200). -/
inductive Fault
  /-- Raised by READ and PEEK on a ring slot that nothing has written (U7, R34). Safe: the machine stops where the
  hardware would deliver an unspecified byte; no run from reset reaches it (R47). -/
  | rxSlotUnwritten (slot : Nat)
  /-- Raised by READ, PEEK and the TICK's push on a slot outside 0..N_RX-1, which does not exist (R60). Safe: no run
  from reset reaches it (R47). -/
  | rxSlotAbsent (slot : Nat)
  deriving DecidableEq, Repr

/-- Why the model gives a step no meaning. -/
inductive Refusal
  /-- Raised by an arm of exec whose instruction has no meaning yet: no arm does so. Safe. -/
  | notModelled (mnemonic : String)
  /-- Raised by step in a state whose configuration is illegal: the block does not exist (R9, R201). Safe. -/
  | illegalConfig (e : ConfigError)
  /-- Raised by a clock edge at which a TICK is due while the last TICK's hook body runs (U2, R209). Safe. -/
  | tickOverrun
  /-- Raised when a command is offered while a hook body runs (U3, R175). Safe. -/
  | commandFromHook (w : CmdWord)
  deriving DecidableEq, Repr

/-- The transmit side after reset (R231). -/
def Tx.reset : Tx where
  queue := []
  shift := 0
  sub := 0
  busy := false
  out := true
  oe := false
  pu := false

/-- The receive side after reset (R231); `rx_buf` is unspecified, so no slot holds a value. -/
def Rx.reset : Rx where
  state := .idle
  bits := 0
  mask := 0
  acc := 0
  sub := 0
  busy := false
  disabled := false
  buf := []
  inIdx := 0
  outIdx := 0

/-- DESIGN CHOICE (log 3, log 17, log 20): an environment that has scheduled and offered nothing. -/
def Env.reset : Env where
  script := []
  port := []
  line := .free
  extLow := false
  now := 0

/-- The instance `c` right after reset (R231). -/
def State.resetOf (c : Config) : State where
  cfg := c
  tx := Tx.reset
  rx := Rx.reset
  timerRun := false
  divCnt := 0
  tickHook := 0
  idleHook := 0
  fg := .ready
  tickRun := false
  idleRun := false
  out := none
  env := Env.reset

/-- The machine right after reset (R230, R231), for the instance of log 1. -/
def State.reset : State := State.resetOf Config.sample

end Sys2Proof.Machine
end

