-- ==== Sys2Proof/Machine/Flags.lean ====
section
/-! DEFINITION. The three flags of the block (10_state.md R43): what sets and what clears each. -/

namespace Sys2Proof.Machine

/-- `tx_busy <- 1`: by ENQUEUE only (R24, R120). -/
def Tx.setBusy (t : Tx) : Tx := { t with busy := true }

/-- `tx_busy <- 0`: by the tick's idle branch only (R24, R123). -/
def Tx.clearBusy (t : Tx) : Tx := { t with busy := false }

/-- `rx_busy <- 1`: by the tick at start detection only (R32, R141). -/
def Rx.setBusy (r : Rx) : Rx := { r with busy := true }

/-- `rx_busy <- 0`: by the tick when a character has been pushed (R32, R143). -/
def Rx.clearBusy (r : Rx) : Rx := { r with busy := false }

/-- `rx_disabled <- 0`: by RX_ENABLE only (R33, R149). -/
def Rx.enable (r : Rx) : Rx := { r with disabled := false }

/-- `rx_disabled <- 1` with both ring indices zeroed: by RX_DISABLE and by END through it (R33, R150). -/
def Rx.disable (r : Rx) : Rx := { r with disabled := true, inIdx := 0, outIdx := 0 }

end Sys2Proof.Machine
end

