-- ==== Sys2Proof/Machine/Operands.lean ====
section
/-! DEFINITION. Operand and result forms: the wire frame of a byte (30_encoding.md R80, R81) and the response words
(30_encoding.md R85). -/

namespace Sys2Proof.Machine

/-- `Frame(b) = {1, b[7:0], 0}` (R81): bit 0 the start bit 0, bits 1 to 8 the data least significant first, bit 9 the
stop bit 1 (R80). -/
def frame (b : Byte) : FrameWord := (1#1 ++ b) ++ 0#1

/-- `zext_9(v)` of a byte: `none` = 0 and `v` the byte (R85). -/
def rspByte (v : Byte) : RspWord := v.zeroExtend 9

/-- `zext_9` of one bit: 0x001 for true, 0x000 for false (R85). -/
def rspBit (b : Bool) : RspWord := if b then 0x001 else 0x000

/-- 0x000: the response that only marks completion (R85). -/
def rspDone : RspWord := 0x000

/-- 0x100: "none", the result of READ and PEEK on an empty queue (R85). -/
def rspNone : RspWord := 0x100

end Sys2Proof.Machine
end

