-- ==== Sys2Proof/Machine/Ops.lean ====
section
/-! DEFINITION. The named operations (00_scope.md R13): the ring's memory, the queue primitives (20_memory.md R74 to
R77), the pins (44_pin_sense.md R183), hook invocation (43_hooks.md R172) and the endings of a foreground step
(60_exceptions.md R218). The block takes no exception (R200). Its one interrupt, the TICK, saves and restores nothing
(R206, R209): taking it is `takeTick` of Machine/Timebase.lean, and its return is the end of that step. -/

namespace Sys2Proof.Machine

/-! The ring's storage (R13, R60). -/

/-- The byte a memory holds at slot `a`, if any. -/
def Memory.get : Memory → Nat → Option Byte
  | [], _ => none
  | (k, v) :: m, a => if k = a then some v else Memory.get m a

/-- The memory with byte `v` at slot `a`; it keeps the canonical form. -/
def Memory.set : Memory → Nat → Byte → Memory
  | [], a, v => [(a, v)]
  | (k, w) :: m, a, v =>
    if a < k then (a, v) :: (k, w) :: m
    else if a = k then (a, v) :: m
    else (k, w) :: Memory.set m a v

/-- `MemRead(i, 1)`: one byte of slot `i`, 0 ≤ i < N_RX (R13). A slot that nothing has written has no value (R34). -/
def memRead (c : Config) (m : Memory) (i : Nat) : Except Fault Byte :=
  if i < c.nRx then
    match m.get i with
    | some v => .ok v
    | none => .error (.rxSlotUnwritten i)
  else .error (.rxSlotAbsent i)

/-- `MemWrite(i, 1, v)`: one byte to slot `i`, 0 ≤ i < N_RX (R13). -/
def memWrite (c : Config) (m : Memory) (i : Nat) (v : Byte) : Except Fault Memory :=
  if i < c.nRx then .ok (m.set i v) else .error (.rxSlotAbsent i)

/-! Transmit queue (R74). -/

/-- `TxLen()`. -/
def Tx.len (t : Tx) : Nat := t.queue.length

/-- `TxPush(b)`: append at the back. -/
def Tx.push (t : Tx) (b : Byte) : Tx := { t with queue := t.queue ++ [b] }

/-- `TxPop()`: the front byte and the queue without it, if there is one. -/
def Tx.pop (t : Tx) : Option (Byte × Tx) :=
  match t.queue with
  | [] => none
  | b :: bs => some (b, { t with queue := bs })

/-! Receive ring (R75 to R77). -/

/-- `(i + 1) mod N_RX`: the slot after `i` (R12, R77). -/
def nextSlot (c : Config) (i : BitVec 8) : BitVec 8 := BitVec.ofNat 8 ((i.toNat + 1) % c.nRx)

/-- `RxCount() = (rx_in - rx_out) mod N_RX` (R75), the remainder in 0..N_RX-1 (R12). -/
def Rx.count (c : Config) (r : Rx) : Nat := (((r.inIdx.toNat : Int) - r.outIdx.toNat) % (c.nRx : Int)).toNat

/-- `RxEmpty()` (R75). -/
def Rx.empty (r : Rx) : Bool := r.inIdx == r.outIdx

/-- `RxFull()` (R76). -/
def Rx.full (c : Config) (r : Rx) : Bool := nextSlot c r.inIdx == r.outIdx

/-- `RxPush(b)` (R77): a full ring drops the incoming byte. -/
def Rx.push (c : Config) (r : Rx) (b : Byte) : Except Fault Rx :=
  if r.full c then .ok r
  else
    match memWrite c r.buf r.inIdx.toNat b with
    | .ok m => .ok { r with buf := m, inIdx := nextSlot c r.inIdx }
    | .error e => .error e

/-- `RxFront()` (R77). -/
def Rx.front (c : Config) (r : Rx) : Except Fault Byte := memRead c r.buf r.outIdx.toNat

/-- `RxPop()` (R77): the oldest unread byte, and the ring with `rx_out` past it. -/
def Rx.pop (c : Config) (r : Rx) : Except Fault (Byte × Rx) :=
  match memRead c r.buf r.outIdx.toNat with
  | .ok v => .ok (v, { r with outIdx := nextSlot c r.outIdx })
  | .error e => .error e

/-- The 8-bit difference of AVAILABLE, corrected by N_RX when its bit 7 is set (R146). -/
def Rx.difference (c : Config) (r : Rx) : BitVec 8 :=
  let d := r.inIdx - r.outIdx
  if d.getLsbD 7 then d + BitVec.ofNat 8 c.nRx else d

/-! Pins (R49, R183). -/

/-- `pad()`: the level of the transmit pad, by the table of R183. In the two rows that say "any value" it is the free
value of this step (U5, U6, log 9). The pin state (1, 1), which never occurs, is read as (1, 0) (U15). -/
def State.pad (s : State) : Level :=
  match s.tx.oe, s.tx.pu, s.env.extLow with
  | true, _, false => s.tx.out
  | true, _, true => Config.freePadLevel s.env.now
  | false, true, false => true
  | false, true, true => false
  | false, false, true => false
  | false, false, false => Config.freePadLevel s.env.now

/-- `sample(rx_i)` (R13, R49): the level of the receive pin at this tick. On the loopback wire it is the pad's level
(D33). -/
def State.sampleRx (s : State) : Level :=
  match s.env.line with
  | .free => Config.freeRxLevel s.env.now
  | .level v => v
  | .loopback => s.pad

/-- (`tx_oe`, `tx_pu`) = (1, 0) at level 1: driven output, idle-high (R181, R190). -/
def Tx.driveHigh (t : Tx) : Tx := { t with out := true, oe := true, pu := false }

/-- (`tx_oe`, `tx_pu`) = (0, 1): input with pull-up (R180). -/
def Tx.release (t : Tx) : Tx := { t with oe := false, pu := true }

/-! Hook invocation (R172): handle 0x00 is the no-op; any other is one event and a body that runs until
`hook_done_i`. -/

/-- `InvokeHook(tick_hook)` (R173). -/
def State.invokeTickHook (s : State) : State :=
  if s.tickHook = 0 then { s with out := none }
  else { s with out := some (.tickHook s.tickHook), tickRun := true }

/-- `InvokeHook(idle_hook)` (R174). -/
def State.invokeIdleHook (s : State) : State :=
  if s.idleHook = 0 then { s with out := none }
  else { s with out := some (.idleHook s.idleHook), idleRun := true }

/-- `hook_done_i` (R172): the body that runs has returned. A tick hook preempts the foreground, so it is the one that
returns first (R206, log 5). DESIGN CHOICE: the spec gives the signal no meaning while no body runs (R49, R172); the model then
ignores it (log 5). -/
def State.hookDone (s : State) : State :=
  if s.tickRun then { s with tickRun := false } else { s with idleRun := false }

/-! The endings of a foreground step (R218). -/

/-- The phase in which the command in progress is evaluated: 0 for a command just issued. -/
def State.phase (s : State) : Phase :=
  match s.fg with
  | .ready => .zero
  | .spin _ p => p

/-- `respond(v)`: the response word is returned and `fg <- Ready`. -/
def State.respond (s : State) (v : RspWord) : State := { s with fg := .ready, out := some (.response v) }

/-- `spin`: the idle hook is invoked and the command stays in its phase. -/
def State.spin (s : State) (c : Instr) (p : Phase) : State := { s with fg := .spin c p }.invokeIdleHook

/-- `go to phase q`: evaluated at the next foreground step, with no hook invocation. -/
def State.goPhase (s : State) (c : Instr) (q : Phase) : State := { s with fg := .spin c q, out := none }

/-- The state with its receive side replaced. -/
def State.withRx (s : State) (r : Rx) : State := { s with rx := r }

/-- The state with its transmit side replaced. -/
def State.withTx (s : State) (t : Tx) : State := { s with tx := t }

/-- The wait of FLUSH, which SENSE_BEGIN and END's phase 1 share (R121, R180, R191): spin while `tx_busy` is 1. -/
def State.whenTxIdle (s : State) (c : Instr) (p : Phase) (done : State) : State :=
  if s.tx.busy then s.spin c p else done

/-- The wait of RX_DISABLE, which END's phase 0 shares (R150, R191): spin while `rx_busy` is 1. -/
def State.whenRxIdle (s : State) (c : Instr) (p : Phase) (done : State) : State :=
  if s.rx.busy then s.spin c p else done

end Sys2Proof.Machine
end

