-- ==== Sys2Proof/Machine/Hooks.lean ====
section
/-! DEFINITION. The hook registration commands (43_hooks.md R170, R171). -/

namespace Sys2Proof.Machine

/-- SET_TICK_HOOK h (R170). -/
def execSetTickHook (h : Handle) (s : State) : Host.Outcome State Fault Refusal :=
  .next ({ s with tickHook := h }.respond rspDone)

/-- SET_IDLE_HOOK h (R171). -/
def execSetIdleHook (h : Handle) (s : State) : Host.Outcome State Fault Refusal :=
  .next ({ s with idleHook := h }.respond rspDone)

end Sys2Proof.Machine
end

