-- ==== Sys2Proof/Machine/Lifecycle.lean ====
section
/-! DEFINITION. The lifecycle commands (45_lifecycle.md R190, R191) and the reserved opcode (30_encoding.md R87). -/

namespace Sys2Proof.Machine

/-- BEGIN (R190): the pin, the divider and the timer; nothing else (D23). -/
def execBegin (s : State) : Host.Outcome State Fault Refusal :=
  .next ({ s with tx := s.tx.driveHigh, divCnt := 0, timerRun := true }.respond rspDone)

/-- END (R191): phase 0 is RX_DISABLE's step, skipped when TX_ONLY (log 14); phase 1 is FLUSH's. -/
def execEnd (s : State) : Host.Outcome State Fault Refusal :=
  if s.phase = .zero ∧ s.cfg.txOnly = false then
    .next (s.whenRxIdle .endCmd .zero ((s.withRx s.rx.disable).goPhase .endCmd .one))
  else .next (s.whenTxIdle .endCmd .one (s.respond rspDone))

/-- Opcode 0xF (R87): the hardware changes no state and answers 0x000 (log 10). -/
def execReserved (s : State) : Host.Outcome State Fault Refusal :=
  .next (s.respond rspDone)

end Sys2Proof.Machine
end

