-- ==== Sys2Proof/Machine/PinSense.lean ====
section
/-! DEFINITION. The signal-sense commands (44_pin_sense.md R180 to R182). -/

namespace Sys2Proof.Machine

/-- SENSE_BEGIN (R180): the flush, then the pin becomes a pulled-up input. -/
def execSenseBegin (s : State) : Host.Outcome State Fault Refusal :=
  .next (s.whenTxIdle .senseBegin .zero ((s.withTx s.tx.release).respond rspDone))

/-- SENSE_END (R181): at once, without waiting for the transmitter (D22). -/
def execSenseEnd (s : State) : Host.Outcome State Fault Refusal :=
  .next ((s.withTx s.tx.driveHigh).respond rspDone)

/-- READ_PIN (R182): the pad's level, not the latch's. -/
def execReadPin (s : State) : Host.Outcome State Fault Refusal :=
  .next (s.respond (rspBit s.pad))

end Sys2Proof.Machine
end

