-- ==== Sys2Proof/Machine/Receive.lean ====
section
/-! DEFINITION. The receive engine (42_receive.md): the receive part of the TICK, AVAILABLE, READ, PEEK, RX_ENABLE,
RX_DISABLE, and their stubs in the TX_ONLY variant (R151). -/

namespace Sys2Proof.Machine

/-- `RxTick(s)` in `Idle` (R141): a low level starts a character. -/
def rxTickIdle (c : Config) (level : Level) (r : Rx) : Rx :=
  if level then r
  else
    { r with state := .inCharacter, bits := 8, mask := 0x01, acc := 0x00
             sub := BitVec.ofNat 8 c.rxStartDelay }.setBusy

/-- The sample of one data bit (R142): OR the mask in when the level is high, shift the mask, count the bit. -/
def Rx.sampleBit (level : Level) (r : Rx) : Rx :=
  { r with acc := if level then r.acc ||| r.mask else r.acc, mask := r.mask <<< 1, bits := r.bits - 1 }

/-- The end of the data bits (R142): after the eighth sample the stop window is waited out. -/
def Rx.endOfBits (r : Rx) : Rx := if r.bits = 0 then { r with state := .awaitingStopBit } else r

/-- `RxTick(s)` in `InCharacter` (R142). Both reloads of `rx_sub` there are F. -/
def rxTickInCharacter (c : Config) (level : Level) (r : Rx) : Rx :=
  if r.sub - 1 = 0 then (Rx.sampleBit level { r with sub := BitVec.ofNat 8 c.f }).endOfBits
  else { r with sub := r.sub - 1 }

/-- `RxTick(s)` in `AwaitingStopBit` (R143): the level is not examined (R144). -/
def rxTickAwaitingStop (c : Config) (r : Rx) : Except Fault Rx :=
  if r.sub - 1 = 0 then
    match Rx.push c { r with sub := 0 } r.acc with
    | .ok r' => .ok { r'.clearBusy with state := .idle }
    | .error e => .error e
  else .ok { r with sub := r.sub - 1 }

/-- `RxTick(s)` (R140): exactly one of the three rules, chosen by `rx_state` at entry. -/
def rxTick (c : Config) (level : Level) (r : Rx) : Except Fault Rx :=
  match r.state with
  | .idle => .ok (rxTickIdle c level r)
  | .inCharacter => .ok (rxTickInCharacter c level r)
  | .awaitingStopBit => rxTickAwaitingStop c r

/-- AVAILABLE (R146; stub R151). -/
def execAvailable (s : State) : Host.Outcome State Fault Refusal :=
  if s.cfg.txOnly then .next (s.respond rspDone)
  else .next (s.respond (rspByte (s.rx.difference s.cfg)))

/-- READ (R147; stub R151). -/
def execRead (s : State) : Host.Outcome State Fault Refusal :=
  if s.cfg.txOnly || s.rx.empty then .next (s.respond rspNone)
  else
    match s.rx.pop s.cfg with
    | .ok (v, r) => .next ((s.withRx r).respond (rspByte v))
    | .error e => .fault e

/-- PEEK (R148; stub R151). -/
def execPeek (s : State) : Host.Outcome State Fault Refusal :=
  if s.cfg.txOnly || s.rx.empty then .next (s.respond rspNone)
  else
    match s.rx.front s.cfg with
    | .ok v => .next (s.respond (rspByte v))
    | .error e => .fault e

/-- RX_ENABLE (R149; stub R151). -/
def execRxEnable (s : State) : Host.Outcome State Fault Refusal :=
  if s.cfg.txOnly then .next (s.respond rspDone)
  else .next ((s.withRx s.rx.enable).respond rspDone)

/-- RX_DISABLE (R150; stub R151). -/
def execRxDisable (s : State) : Host.Outcome State Fault Refusal :=
  if s.cfg.txOnly then .next (s.respond rspDone)
  else .next (s.whenRxIdle .rxDisable .zero ((s.withRx s.rx.disable).respond rspDone))

end Sys2Proof.Machine
end

