-- ==== Sys2Proof/Machine/Transmit.lean ====
section
/-! DEFINITION. The transmit engine (41_transmit.md): ENQUEUE, FLUSH, IS_BUSY and the transmit part of the TICK. -/

namespace Sys2Proof.Machine

/-- ENQUEUE d (R120): spin while the queue is full; else append and set `tx_busy`. -/
def execEnqueue (d : Byte) (s : State) : Host.Outcome State Fault Refusal :=
  if s.tx.len = s.cfg.nTx then .next (s.spin (.enqueue d) .zero)
  else .next ((s.withTx (s.tx.push d).setBusy).respond rspDone)

/-- FLUSH (R121): spin while `tx_busy` is 1. -/
def execFlush (s : State) : Host.Outcome State Fault Refusal :=
  .next (s.whenTxIdle .flush .zero (s.respond rspDone))

/-- IS_BUSY (R122). -/
def execIsBusy (s : State) : Host.Outcome State Fault Refusal :=
  .next (s.respond (rspBit s.tx.busy))

/-- The output of one frame bit (R123): the low bit to the pin, shift right by one with 0 entering at bit 9, the
sub-bit counter back to F. -/
def Tx.output (c : Config) (t : Tx) : Tx :=
  { t with out := t.shift.getLsbD 0, shift := t.shift >>> 1, sub := BitVec.ofNat 8 c.f }

/-- R123 from the point where `tx_sub` = 0: reload when the shift register is empty, go idle when the queue is empty
too, else output a bit (in the tick of the reload as well, D7). -/
def Tx.advance (c : Config) (t : Tx) : Tx :=
  if t.shift = 0 then
    match t.pop with
    | some (b, t') => Tx.output c { t' with shift := frame b }
    | none => t.clearBusy
  else Tx.output c t

/-- `TxTick()` (R123): a bit that is still held is only counted down; the tick whose decrement reaches 0 goes on (D6). -/
def txTick (c : Config) (t : Tx) : Tx :=
  if t.sub = 0 then t.advance c
  else if t.sub - 1 = 0 then Tx.advance c { t with sub := t.sub - 1 }
  else { t with sub := t.sub - 1 }

end Sys2Proof.Machine
end

