-- ==== Sys2Proof/Machine/Dispatch.lean ====
section
/-! DEFINITION. One arm per command: the evaluation of its rule in the phase `fg` names (60_exceptions.md R218). -/

namespace Sys2Proof.Machine

def exec (i : Instr) (s : State) : Host.Outcome State Fault Refusal :=
  match i with
  | .beginCmd => Sys2Proof.Machine.execBegin s
  | .endCmd => Sys2Proof.Machine.execEnd s
  | .enqueue d => Sys2Proof.Machine.execEnqueue d s
  | .flush => Sys2Proof.Machine.execFlush s
  | .isBusy => Sys2Proof.Machine.execIsBusy s
  | .available => Sys2Proof.Machine.execAvailable s
  | .read => Sys2Proof.Machine.execRead s
  | .peek => Sys2Proof.Machine.execPeek s
  | .rxEnable => Sys2Proof.Machine.execRxEnable s
  | .rxDisable => Sys2Proof.Machine.execRxDisable s
  | .senseBegin => Sys2Proof.Machine.execSenseBegin s
  | .senseEnd => Sys2Proof.Machine.execSenseEnd s
  | .readPin => Sys2Proof.Machine.execReadPin s
  | .setTickHook h => Sys2Proof.Machine.execSetTickHook h s
  | .setIdleHook h => Sys2Proof.Machine.execSetIdleHook h s
  | .reservedF => Sys2Proof.Machine.execReserved s

end Sys2Proof.Machine
end

