-- ==== Sys2Proof/Machine/Timebase.lean ====
section
/-! DEFINITION. The bit-slice timebase (40_timebase.md): the divider and the TICK. -/

namespace Sys2Proof.Machine

/-- Part 2 of the TICK (R104, R140): the receive engine, unless it does not exist or is disabled. -/
def State.receivePart (s : State) : Except Fault Rx :=
  if s.cfg.txOnly || s.rx.disabled then .ok s.rx else rxTick s.cfg s.sampleRx s.rx

/-- The TICK (R104, R208): transmit, then receive, then the tick hook, as one atomic step. -/
def takeTick (s : State) : Host.Outcome State Fault Refusal :=
  let s1 := s.withTx (txTick s.cfg s.tx)
  match s1.receivePart with
  | .ok r => .next (s1.withRx r).invokeTickHook
  | .error e => .fault e

/-- A rising edge of `clk_i` (R103). A TICK that is due while the last one's hook body runs is refused (U2, log 6). -/
def clockEdge (s : State) : Host.Outcome State Fault Refusal :=
  if s.timerRun then
    if s.divCnt = s.cfg.top then
      if s.tickRun then .refused .tickOverrun else takeTick { s with divCnt := 0 }
    else .next { s with divCnt := s.divCnt + 1 }
  else .next s

end Sys2Proof.Machine
end

