-- ==== Sys2Proof/Machine/Fetch.lean ====
section
/-! DEFINITION. What a step does around exec: taking the next stimulus (00_scope.md R10), accepting a command word
from the port (30_encoding.md R84, 60_exceptions.md R218), reset (70_reset_and_hazards.md R230). -/

namespace Sys2Proof.Machine

/-- The next stimulus: the script's first, or the free value of this step where the script lists none (log 3). -/
def State.stimulus (s : State) : Stimulus :=
  match s.env.script with
  | [] => Config.freeStimulus s.env.now
  | x :: _ => x

/-- The state in which the stimulus acts: it is taken from the script, and no event has occurred yet (log 18). -/
def State.opened (s : State) : State :=
  { s with out := none, env := { s.env with script := s.env.script.tail } }

/-- The state with the step counted. -/
def State.counted (s : State) : State := { s with env := { s.env with now := s.env.now + 1 } }

/-- The state with the port's first word accepted. -/
def State.withPort (s : State) (ws : List CmdWord) : State := { s with env := { s.env with port := ws } }

/-- A hook body runs: the foreground makes no step (R172, R206, R239). -/
def State.hookRuns (s : State) : Bool := s.tickRun || s.idleRun

/-- A step of the foreground agent (R218). While a hook body runs it makes none (log 5); a word on the port is
accepted only when `fg` = Ready (R84, U14); with `fg` = Ready and no word offered nothing happens (log 17). -/
def foregroundStep (s : State) : Host.Outcome State Fault Refusal :=
  if s.hookRuns then .next s
  else
    match s.fg, s.env.port with
    | .spin c _, _ => exec c s
    | .ready, [] => .next s
    | .ready, w :: ws => exec (decode w) (s.withPort ws)

/-- A word is offered: it joins the words that wait at the port, which holds it off while `fg` ≠ Ready (U14). With
`fg` = Ready a word offered is a command issued (R84), and none may be issued while a hook body runs (U3, log 7). -/
def offerWord (w : CmdWord) (s : State) : Host.Outcome State Fault Refusal :=
  if s.fg = .ready ∧ s.hookRuns = true then .refused (.commandFromHook w)
  else .next (s.withPort (s.env.port ++ [w]))

/-- `rst_i` asserted (R230, R231): every element takes its reset value; a command in progress is abandoned without a
response. The instance and the environment are not elements of the block (log 12). -/
def State.resetBlock (s : State) : State := { State.resetOf s.cfg with env := s.env }

/-- What one stimulus does. -/
def react (x : Stimulus) (s : State) : Host.Outcome State Fault Refusal :=
  match x with
  | .clock => clockEdge s
  | .foreground => foregroundStep s
  | .hookDone => .next s.hookDone
  | .offer w => offerWord w s
  | .setLine l => .next { s with env := { s.env with line := l } }
  | .setExtLow b => .next { s with env := { s.env with extLow := b } }
  | .reset => .next s.resetBlock

/-- The step counter advances in every next state. -/
def countStep (o : Host.Outcome State Fault Refusal) : Host.Outcome State Fault Refusal :=
  match o with
  | .next s => .next s.counted
  | .fault e => .fault e
  | .refused r => .refused r

/-- One step of the block that exists: the next stimulus acts, and the step is counted. -/
def stepLegal (s : State) : Host.Outcome State Fault Refusal := countStep (react s.stimulus s.opened)

/-- A command word placed where the next step takes it (log 16): first at the port, with a foreground step next, no
command in progress and no hook body running. -/
def State.withCommand (s : State) (w : CmdWord) : State :=
  { s with
    fg := .ready
    tickRun := false
    idleRun := false
    env := { s.env with port := w :: s.env.port, script := .foreground :: s.env.script } }

end Sys2Proof.Machine
end

