-- ==== Sys2Proof/Machine/Step.lean ====
section
/-! DEFINITION. One step of the machine. -/

namespace Sys2Proof.Machine

/-- A step. For an illegal configuration the block does not exist (R9): the step is refused by the error's name. -/
def step (s : State) : Host.Outcome State Fault Refusal :=
  match s.cfg.check with
  | some e => .refused (.illegalConfig e)
  | none => stepLegal s

/-- The instance `c` right after reset, or the error that rejects it (R9, R201). -/
def State.instantiate (c : Config) : Except ConfigError State :=
  match c.check with
  | some e => .error e
  | none => .ok (State.resetOf c)

/-- The state whose very next step runs the command whose word is `w` (log 16). -/
def State.withFetchWord (s : State) (nbits w : Nat) : State := s.withCommand (BitVec.ofNat 12 (w % 2 ^ nbits))

end Sys2Proof.Machine
end

