-- ==== Sys2Proof/Machine/Ports.lean ====
section
/-! DEFINITION. The output ports of the block as functions of its state (10_state.md R49). -/

namespace Sys2Proof.Machine

/-- `tx_o`. -/
def State.txO (s : State) : Level := s.tx.out

/-- `tx_oe_o`. -/
def State.txOeO (s : State) : Bool := s.tx.oe

/-- `tx_pu_o`. -/
def State.txPuO (s : State) : Bool := s.tx.pu

/-- `cmd_valid_i`: a command word is offered. -/
def State.cmdValidI (s : State) : Bool := !s.env.port.isEmpty

/-- `cmd_word_i`, while `cmd_valid_i` is 1. -/
def State.cmdWordI (s : State) : Option CmdWord := s.env.port.head?

/-- `cmd_ready_o`: 1 exactly when `fg` = Ready. -/
def State.cmdReadyO (s : State) : Bool := s.fg == .ready

/-- `rsp_word_o`, present when `rsp_valid_o` is 1. -/
def State.rspO (s : State) : Option RspWord :=
  match s.out with
  | some (.response w) => some w
  | _ => none

/-- `tick_hook_id_o`, present when `tick_hook_stb_o` is 1. -/
def State.tickHookO (s : State) : Option Handle :=
  match s.out with
  | some (.tickHook h) => some h
  | _ => none

/-- `idle_hook_id_o`, present when `idle_hook_stb_o` is 1. -/
def State.idleHookO (s : State) : Option Handle :=
  match s.out with
  | some (.idleHook h) => some h
  | _ => none

end Sys2Proof.Machine
end

