-- ==== Sys2Proof/Safety.lean ====
section
/-! DEFINITION. What claims about the machine are stated in: the invariant of every run from reset (10_state.md R45 to
R47 and the ranges of R21 to R41), a safe step, and the iteration of the parts of a TICK. -/

namespace Sys2Proof.Machine

/-- The transmit side in every state a run from reset reaches. -/
structure TxOk (c : Config) (t : Tx) : Prop where
  /-- A full queue holds exactly N_TX bytes (R21). -/
  room : t.len ≤ c.nTx
  /-- The range of `tx_sub` (R23). -/
  sub_le : t.sub.toNat ≤ c.f
  /-- The transmit invariant (R45). -/
  busy_iff : t.busy = true ↔ t.queue ≠ [] ∨ t.shift ≠ 0 ∨ t.sub ≠ 0
  /-- (1, 1) never occurs (R26). -/
  pin : ¬(t.oe = true ∧ t.pu = true)
  /-- A transmitter with an empty shift register holds the idle level (R123 (3), R180 (b)). -/
  idle_high : t.shift = 0 → t.out = true

/-- The receive side in every state a run from reset reaches, where the receiver exists. -/
structure RxOk (c : Config) (r : Rx) : Prop where
  /-- The range of `rx_in` (R35, R47). -/
  in_lt : r.inIdx.toNat < c.nRx
  /-- The range of `rx_out` (R36, R47). -/
  out_lt : r.outIdx.toNat < c.nRx
  /-- The range of `rx_bits` (R28). -/
  bits_le : r.bits.toNat ≤ 8
  /-- The range of `rx_sub` (R31). -/
  sub_le : r.sub.toNat ≤ c.rxStartDelay
  /-- The receive invariant (R46). -/
  busy_iff : r.busy = true ↔ r.state ≠ .idle
  /-- `rx_sub` is at least 1 whenever a rule decrements it (R31, R46). -/
  sub_pos : r.state ≠ .idle → 1 ≤ r.sub.toNat
  /-- In a character there is a bit left to sample (R28, R142). -/
  bits_pos : r.state = .inCharacter → 1 ≤ r.bits.toNat
  /-- `rx_mask` is one-hot at the bit to be sampled next (R29, R83). -/
  mask_eq : r.state = .inCharacter → r.mask = 1#8 <<< (8 - r.bits.toNat)
  /-- While receive is disabled the state machine is in `Idle` and the queue is empty (R150 (a), (b)). -/
  disabled_idle : r.disabled = true → r.state = .idle ∧ r.inIdx = 0 ∧ r.outIdx = 0
  /-- The memory's canonical form. -/
  buf_wf : r.buf.wf
  /-- Only slots 0..N_RX-1 exist (R60). -/
  buf_lt : ∀ cell ∈ r.buf, cell.1 < c.nRx
  /-- Every unread slot has been written (R47). -/
  unread : ∀ k, k < r.count c → r.buf.get ((r.outIdx.toNat + k) % c.nRx) ≠ none

/-- The invariant of the machine: it holds after reset and every step keeps it. -/
structure Inv (s : State) : Prop where
  /-- The instance exists (R9). -/
  legal : s.cfg.check = none
  /-- R21 to R26, R45. -/
  tx : TxOk s.cfg s.tx
  /-- R27 to R36, R46, R47. -/
  rx : s.cfg.txOnly = false → RxOk s.cfg s.rx
  /-- In the TX_ONLY variant the receive elements are never written (R20, R151). -/
  rx_absent : s.cfg.txOnly = true → s.rx = Rx.reset
  /-- The range of `div_cnt` (R38). -/
  div_le : s.divCnt ≤ s.cfg.top
  /-- While the timer has not been started no TICK has occurred (R37, R150 (e), R192). -/
  stopped : s.timerRun = false → s.divCnt = 0 ∧ s.tx.shift = 0 ∧ s.tx.sub = 0 ∧ s.rx.state = .idle ∧ s.tickRun = false
  /-- Once BEGIN has been issued the pin is an output or a pulled-up input (R26). -/
  pin_set : s.timerRun = true → s.tx.oe ≠ s.tx.pu
  /-- Only a blocking command spins, and only END has a second phase (R41, R218). -/
  spinning : ∀ i p, s.fg = .spin i p → i.blocking = true ∧ (p = .one → i = .endCmd)
  /-- An idle-hook body runs only while a command spins (R174). -/
  idle_body : s.idleRun = true → s.fg ≠ .ready ∧ s.idleHook ≠ 0
  /-- Handle 0x00 has no body (R172). -/
  tick_body : s.tickRun = true → s.tickHook ≠ 0

/-- A step is safe when it does not end in a fault (R200). -/
def Safe (s : State) : Prop := ∀ e, step s ≠ .fault e

/-- `n` calls of TxTick (R123). -/
def txTicks (c : Config) : Nat → Tx → Tx
  | 0, t => t
  | n + 1, t => txTick c (txTicks c n t)

/-- `n` calls of RxTick (R140), the `k`-th (from 0) with the level `levels k`. -/
def rxTicks (c : Config) (levels : Nat → Level) : Nat → Rx → Except Fault Rx
  | 0, r => .ok r
  | n + 1, r =>
    match rxTicks c levels n r with
    | .ok r' => rxTick c (levels n) r'
    | .error e => .error e

/-- `n` TICKs (R104). -/
def takeTicks : Nat → State → Host.Outcome State Fault Refusal
  | 0, s => .next s
  | n + 1, s =>
    match takeTicks n s with
    | .next s' => takeTick s'
    | .fault e => .fault e
    | .refused r => .refused r

/-- The unread bytes of the ring, oldest first (R75). -/
def Rx.unreadBytes (c : Config) (r : Rx) : List (Option Byte) :=
  (List.range (r.count c)).map (fun k => r.buf.get ((r.outIdx.toNat + k) % c.nRx))

/-- `n` steps of the machine, stopping at the first fault or refusal. -/
def steps : Nat → State → Host.Outcome State Fault Refusal
  | 0, s => .next s
  | n + 1, s =>
    match step s with
    | .next s' => steps n s'
    | .fault e => .fault e
    | .refused r => .refused r

/-- An outcome with its next state changed. -/
def onNext (f : State → State) (o : Host.Outcome State Fault Refusal) : Host.Outcome State Fault Refusal :=
  match o with
  | .next s => .next (f s)
  | .fault e => .fault e
  | .refused r => .refused r

/-- The reset values of R231, all elements but `rx_buf`, which is unspecified. -/
structure ResetValues (t : State) : Prop where
  queue : t.tx.queue = []
  shift : t.tx.shift = 0
  sub : t.tx.sub = 0
  busy : t.tx.busy = false
  out : t.tx.out = true
  pin : t.tx.oe = false ∧ t.tx.pu = false
  rx_state : t.rx.state = .idle
  rx_regs : t.rx.bits = 0 ∧ t.rx.mask = 0 ∧ t.rx.acc = 0 ∧ t.rx.sub = 0
  rx_busy : t.rx.busy = false
  rx_disabled : t.rx.disabled = false
  rx_indices : t.rx.inIdx = 0 ∧ t.rx.outIdx = 0
  timer : t.timerRun = false
  div : t.divCnt = 0
  hooks : t.tickHook = 0x00 ∧ t.idleHook = 0x00
  fg : t.fg = .ready

/-- The foreground waits for something only a TICK can bring, and the timer has not been started (R234). -/
def BlockedBeforeBegin (s : State) : Prop :=
  s.timerRun = false ∧
    ((s.fg = .spin .flush .zero ∧ s.tx.busy = true) ∨
     (s.fg = .spin .senseBegin .zero ∧ s.tx.busy = true) ∨
     (s.fg = .spin .endCmd .one ∧ s.tx.busy = true) ∨
     (∃ d, s.fg = .spin (.enqueue d) .zero ∧ s.tx.queue.length = s.cfg.nTx))

/-- The event of a hook invocation (R172): none for the no-op handle. -/
def hookEvent (e : Handle → Event) (h : Handle) : Option Event := if h = 0x00 then none else some (e h)

/-- A state after one failed evaluation of a blocking command (R218, R172): nothing but the sequencer, the idle-hook
event and its running body differs. -/
def State.spun (s : State) (c : Instr) (p : Phase) : State :=
  { s with
    fg := .spin c p
    out := hookEvent .idleHook s.idleHook
    idleRun := if s.idleHook = 0x00 then s.idleRun else true }

/-- A state after a command has completed with response `v` (R85, R218). -/
def State.done (s : State) (v : RspWord) : State := { s with fg := .ready, out := some (.response v) }

end Sys2Proof.Machine
end

