-- ==== Sys2Proof/Certificates/Slice0/Obligations.lean ====
section
/-! DEFINITION. The statements about the model, for the provers. Each docstring names the rule of spec/ it
formalises. -/

open Sys2Proof Sys2Proof.Machine

/-! Encodings. -/

/-- 30_encoding.md R84, R86, R88: decoding the canonical word of a command gives the command back, and encoding what a
word decodes to gives the word back with its unused operand bits cleared. -/
def Obligations.DecodeEncodeRoundTrip : Prop :=
  (∀ i : Instr, i.wellFormed = true →
    decode (encode i) = i ∧ opcodeField (encode i) = i.opcode ∧ operandField (encode i) = i.operand) ∧
  (∀ w : CmdWord,
    opcodeField (encode (decode w)) = opcodeField w ∧
    operandField (encode (decode w)) = if (decode w).usesOperand then operandField w else 0x00)

/-- R88: for every opcode but those of ENQUEUE and the two hook commands, any value of `d` selects the same operation
with the same effect, and the canonical encoding has `d` = 0x00. -/
def Obligations.UnusedOperandBitsAreIgnored : Prop :=
  ∀ w w' : CmdWord, opcodeField w = opcodeField w' →
    opcodeField w ≠ 0x2#4 → opcodeField w ≠ 0xD#4 → opcodeField w ≠ 0xE#4 →
    decode w = decode w' ∧ (∀ s, exec (decode w) s = exec (decode w') s) ∧ operandField (encode (decode w)) = 0x00

/-- 95_test_vectors.md V22 (of R84 to R88): words written out from the opcode map decode to the commands they stand
for. -/
def Obligations.OpcodeMapWordsDecode : Prop :=
  decode 0x000#12 = .beginCmd ∧ decode 0x100#12 = .endCmd ∧ decode 0x241#12 = .enqueue 0x41 ∧
  decode 0x2FF#12 = .enqueue 0xFF ∧ decode 0x300#12 = .flush ∧ decode 0x400#12 = .isBusy ∧
  decode 0x500#12 = .available ∧ decode 0x600#12 = .read ∧ decode 0x700#12 = .peek ∧
  decode 0x800#12 = .rxEnable ∧ decode 0x900#12 = .rxDisable ∧ decode 0xA00#12 = .senseBegin ∧
  decode 0xB00#12 = .senseEnd ∧ decode 0xC00#12 = .readPin ∧ decode 0xD01#12 = .setTickHook 0x01 ∧
  decode 0xE07#12 = .setIdleHook 0x07 ∧ decode 0x3A7#12 = .flush ∧ decode 0x6FF#12 = .read ∧
  decode 0xF12#12 = .reservedF

/-- R80, R81: the frame of a byte bit by bit, its closed formula, its range, and the rule's four examples. -/
def Obligations.FrameHoldsStartDataStop : Prop :=
  (∀ b : Byte,
    (frame b).getLsbD 0 = false ∧ (frame b).getLsbD 9 = true ∧
    (∀ k, k < 8 → (frame b).getLsbD (k + 1) = b.getLsbD k) ∧
    frame b = (0x200#10 ||| (b.zeroExtend 10 <<< 1)) ∧
    0x200 ≤ (frame b).toNat ∧ (frame b).toNat ≤ 0x3FE ∧ (frame b).toNat % 2 = 0 ∧ frame b ≠ 0) ∧
  frame 0x00 = 0x200 ∧ frame 0x55 = 0x2AA ∧ frame 0x41 = 0x282 ∧ frame 0xFF = 0x3FE

/-! Configuration and reset. -/

/-- 40_timebase.md R101: no other divider value comes closer to `F_CLK / R_TICK`, and of two equally close ones
DIVISOR is the larger. -/
def Obligations.DivisorIsNearestTiesUpward : Prop :=
  ∀ (c : Config) (k : Nat), 0 < c.rTick →
    ((c.fClk : Int) - (c.divisor : Int) * (c.rTick : Int)).natAbs ≤ ((c.fClk : Int) - (k : Int) * (c.rTick : Int)).natAbs ∧
    (((c.fClk : Int) - (c.divisor : Int) * (c.rTick : Int)).natAbs = ((c.fClk : Int) - (k : Int) * (c.rTick : Int)).natAbs →
      k ≤ c.divisor)

/-- 60_exceptions.md R201: each build-time error applies exactly under its condition, and each is a refusal to
instantiate: an instance exists exactly when none applies, and is then in the reset state. Which of several errors is
named is the model's choice (log 2). -/
def Obligations.BuildTimeErrorsRejectInstances : Prop :=
  ∀ c : Config,
    (.oversampleTooSmall ∈ c.errors ↔ c.f < 3) ∧
    (.oversampleTooLarge ∈ c.errors ↔ 170 < c.f) ∧
    (.rxCapacityTooLarge ∈ c.errors ↔ c.txOnly = false ∧ 128 < c.nRx) ∧
    (.rxCapacityTooSmall ∈ c.errors ↔ c.txOnly = false ∧ c.nRx < 2) ∧
    (.txCapacityZero ∈ c.errors ↔ c.nTx < 1) ∧
    (.timerTopOutOfRange ∈ c.errors ↔ c.timerTopMax < c.top) ∧
    (.timerDivisorZero ∈ c.errors ↔ c.divisor = 0 ∨ c.baud = 0 ∨ c.fClk = 0) ∧
    (c.errors = [] → State.instantiate c = .ok (State.resetOf c)) ∧
    (c.errors ≠ [] → ∃ e, e ∈ c.errors ∧ State.instantiate c = .error e)

/-- 00_scope.md R9 with the model's choice of log 2: an illegal configuration has no behaviour; step is refused by the
name of the error that rejects the instance, whatever the state. -/
def Obligations.IllegalConfigurationNeverRuns : Prop :=
  ∀ (s : State), s.cfg.errors ≠ [] →
    ∃ e, e ∈ s.cfg.errors ∧ step s = .refused (.illegalConfig e) ∧ State.instantiate s.cfg = .error e

/-- 00_scope.md R5 to R7, 10_state.md R28 to R36: in a legal instance every constant a rule loads fits the register it
is loaded into. -/
def Obligations.LegalParametersFitTheirRegisters : Prop :=
  ∀ c : Config, c.check = none →
    3 ≤ c.f ∧ c.f ≤ 170 ∧ 1 ≤ c.nTx ∧ 1 ≤ c.divisor ∧ c.top ≤ c.timerTopMax ∧ c.top + 1 = c.divisor ∧
    (BitVec.ofNat 8 c.f).toNat = c.f ∧ (BitVec.ofNat 8 c.rxStartDelay).toNat = c.f + c.f / 2 ∧
    (c.txOnly = false → 2 ≤ c.nRx ∧ c.nRx ≤ 128 ∧ ∀ i : BitVec 8, (nextSlot c i).toNat = (i.toNat + 1) % c.nRx)

/-- 70_reset_and_hazards.md R231: the reset values, after power-on and after every step in which reset is asserted; a
command in progress is abandoned without a response. -/
def Obligations.ResetGivesResetValues : Prop :=
  (∀ c : Config, ResetValues (State.resetOf c)) ∧ ResetValues State.reset ∧
  (∀ s : State, s.cfg.check = none → s.stimulus = .reset →
    ∃ t, step s = .next t ∧ ResetValues t ∧ t.cfg = s.cfg ∧ t.out = none)

/-! The step and the command sequencer. -/

/-- 60_exceptions.md R218, 30_encoding.md R84: a foreground step is exec of the command accepted from the port when `fg`
is Ready, and of the command in progress when it spins; the step adds the consumption of the word and of the stimulus
and the count of the step. -/
def Obligations.ForegroundStepRunsTheCommand : Prop :=
  ∀ (s : State) (rest : List Stimulus), s.cfg.check = none → s.env.script = .foreground :: rest →
    s.tickRun = false → s.idleRun = false →
    (∀ w ws, s.fg = .ready → s.env.port = w :: ws →
      step s = countStep (exec (decode w) { s with out := none, env := { s.env with script := rest, port := ws } })) ∧
    (∀ c p, s.fg = .spin c p →
      step s = countStep (exec c { s with out := none, env := { s.env with script := rest } }))

/-- R84, log 16: withFetchWord places a command word so that the very next step runs the command it decodes to. -/
def Obligations.WithFetchWordRunsTheDecodedCommand : Prop :=
  ∀ (s : State) (nbits w : Nat), s.cfg.check = none → 12 ≤ nbits → w < 4096 →
    ∃ i, decodeTableWord nbits w = some i ∧ i = decode (BitVec.ofNat 12 w) ∧
      step (s.withFetchWord nbits w) =
        countStep (exec i { s with fg := .ready, tickRun := false, idleRun := false, out := none })

/-- R218: an evaluation that answers a next state ends in exactly one of respond, spin, and (END only) go to phase 1;
a non-blocking command always responds. -/
def Obligations.EvaluationRespondsSpinsOrChangesPhase : Prop :=
  ∀ (i : Instr) (s t : State), exec i s = .next t →
    ((t.fg = .ready ∧ ∃ v, t.out = some (.response v)) ∨
     (i.blocking = true ∧ ∃ p, (p = .zero ∨ i = .endCmd) ∧ t = s.spun i p) ∨
     (i = .endCmd ∧ s.phase = .zero ∧ s.cfg.txOnly = false ∧ t.fg = .spin .endCmd .one ∧ t.out = none)) ∧
    (i.blocking = false → t.fg = .ready ∧ ∃ v, t.out = some (.response v))

/-- R84, R218, U14: while a command spins a foreground step accepts no word from the port. The queue at the port, at
whose end a word offered joins those that wait, is the model's choice (log 17), and so are the line and the external
pull as data that a stimulus changes (log 20). An offer, with a command in progress or with no hook body running, and a
change of an input change that datum and nothing of the block; the step adds what every step does to `out`, to the
script and to the count. -/
def Obligations.PortHoldsCommandsOffWhileSpinning : Prop :=
  ∀ s : State, s.cfg.check = none →
    (∀ (c : Instr) (p : Phase) (t : State), s.fg = .spin c p → s.stimulus = .foreground → step s = .next t →
      t.env.port = s.env.port) ∧
    (∀ w, s.stimulus = .offer w → (s.fg ≠ .ready ∨ (s.tickRun = false ∧ s.idleRun = false)) →
      step s = .next
        { s with out := none
                 env := { s.env with script := s.env.script.tail, port := s.env.port ++ [w], now := s.env.now + 1 } }) ∧
    (∀ l, s.stimulus = .setLine l →
      step s = .next
        { s with out := none
                 env := { s.env with script := s.env.script.tail, line := l, now := s.env.now + 1 } }) ∧
    (∀ b, s.stimulus = .setExtLow b →
      step s = .next
        { s with out := none
                 env := { s.env with script := s.env.script.tail, extLow := b, now := s.env.now + 1 } })

/-- 43_hooks.md R172, R175, 70_reset_and_hazards.md R239 with log 5 and log 7: while a hook body runs the foreground
makes no attempt; an idle-hook body holds up no TICK; `hook_done_i` ends the body and touches nothing else of the
block; a command issued meanwhile is refused. That `hook_done_i` with no body running changes nothing is the model's
choice (log 5). -/
def Obligations.RunningHookHoldsOnlyTheForeground : Prop :=
  ∀ (s : State) (rest : List Stimulus), s.cfg.check = none →
    ((s.tickRun = true ∨ s.idleRun = true) → s.env.script = .foreground :: rest →
      step s = .next { s with out := none, env := { s.env with script := rest, now := s.env.now + 1 } }) ∧
    (s.idleRun = true → s.tickRun = false → s.timerRun = true → s.divCnt = s.cfg.top → s.env.script = .clock :: rest →
      step s = countStep (takeTick { s with divCnt := 0, out := none, env := { s.env with script := rest } })) ∧
    (s.env.script = .hookDone :: rest →
      ∃ t, step s = .next t ∧ t.tickRun = false ∧ (s.tickRun = false → t.idleRun = false) ∧
        (s.tickRun = true → t.idleRun = s.idleRun) ∧
        t.cfg = s.cfg ∧ t.tx = s.tx ∧ t.rx = s.rx ∧ t.timerRun = s.timerRun ∧ t.divCnt = s.divCnt ∧
        t.tickHook = s.tickHook ∧ t.idleHook = s.idleHook ∧ t.fg = s.fg) ∧
    (∀ w, s.fg = .ready → (s.tickRun = true ∨ s.idleRun = true) → s.env.script = .offer w :: rest →
      step s = .refused (.commandFromHook w))

/-! The timebase. -/

/-- 40_timebase.md R103: while `timer_run` = 1 the counter counts clock edges up to TOP and the edge after that zeroes
it and takes the TICK, so from `div_cnt` = 0 a TICK takes DIVISOR edges; while `timer_run` = 0 the counter holds its
value and no TICK occurs. -/
def Obligations.TickEveryDivisorClockEdges : Prop :=
  ∀ (s : State) (k : Nat) (rest : List Stimulus), s.cfg.check = none →
    s.env.script = List.replicate (k + 1) .clock ++ rest →
    (s.timerRun = true → s.divCnt + k + 1 ≤ s.cfg.top →
      steps (k + 1) s = .next
        { s with divCnt := s.divCnt + k + 1, out := none
                 env := { s.env with script := rest, now := s.env.now + k + 1 } }) ∧
    (s.timerRun = true → s.tickRun = false → s.divCnt + k = s.cfg.top →
      steps (k + 1) s = countStep (takeTick
        { s with divCnt := 0, out := none, env := { s.env with script := rest, now := s.env.now + k } })) ∧
    (s.timerRun = true → s.tickRun = false → s.divCnt = 0 → k + 1 = s.cfg.divisor →
      steps (k + 1) s = countStep (takeTick
        { s with out := none, env := { s.env with script := rest, now := s.env.now + k } })) ∧
    (s.timerRun = false →
      steps (k + 1) s = .next
        { s with out := none, env := { s.env with script := rest, now := s.env.now + k + 1 } })

/-- R104: a TICK is transmit, then receive unless TX_ONLY or disabled, then the tick hook, as one step; the receive
sample is taken after the transmit part, so a looped-back line shows the pad's level then (R183, D33): the level just
driven, 1 when the pin is pulled up, 0 when an external device pulls a pin that is not driven; nothing else changes.
With `timer_run` = 0 no TICK occurs. -/
def Obligations.TickRunsTransmitReceiveHookInOrder : Prop :=
  (∀ s : State, s.timerRun = false → clockEdge s = .next s) ∧
  ∀ s t : State, takeTick s = .next t →
    t.tx = txTick s.cfg s.tx ∧
    (s.cfg.txOnly = true ∨ s.rx.disabled = true → t.rx = s.rx) ∧
    (s.cfg.txOnly = false → s.rx.disabled = false →
      ∃ level, rxTick s.cfg level s.rx = .ok t.rx ∧
        (∀ v, s.env.line = .level v → level = v) ∧
        (s.env.line = .loopback → s.tx.oe = true → s.env.extLow = false → level = t.tx.out) ∧
        (s.env.line = .loopback → s.tx.oe = false → s.tx.pu = true → s.env.extLow = false → level = true) ∧
        (s.env.line = .loopback → s.tx.oe = false → s.env.extLow = true → level = false)) ∧
    t.out = hookEvent .tickHook s.tickHook ∧
    t.tickRun = (if s.tickHook = 0x00 then s.tickRun else true) ∧
    t.cfg = s.cfg ∧ t.timerRun = s.timerRun ∧ t.divCnt = s.divCnt ∧ t.tickHook = s.tickHook ∧
    t.idleHook = s.idleHook ∧ t.fg = s.fg ∧ t.idleRun = s.idleRun ∧ t.env = s.env

/-- 60_exceptions.md R209, U2: a TICK that is due while the last one's hook body runs has no behaviour; the step is
refused by name. -/
def Obligations.OverrunningTickIsRefused : Prop :=
  ∀ s : State, s.cfg.check = none → s.stimulus = .clock → s.timerRun = true → s.divCnt = s.cfg.top → s.tickRun = true →
    step s = .refused .tickOverrun

/-- 40_timebase.md R108: `timer_run` is set by BEGIN and by nothing else, and once it is 1 it stays 1 until reset,
whatever step is taken. -/
def Obligations.OnlyBeginStartsTheTimerAndOnlyResetStopsIt : Prop :=
  ∀ s t : State, step s = .next t →
    (s.timerRun = true → s.stimulus ≠ .reset → t.timerRun = true) ∧
    (s.timerRun = false → t.timerRun = true → s.stimulus = .foreground ∧
      ((s.fg = .ready ∧ ∃ w ws, s.env.port = w :: ws ∧ decode w = .beginCmd) ∨ ∃ p, s.fg = .spin .beginCmd p)) ∧
    (s.timerRun = true → s.stimulus = .reset → t.timerRun = false)

/-! The transmit engine. -/

/-- 41_transmit.md R120: with room ENQUEUE appends its byte, sets `tx_busy` and answers 0x000 in one step; with a full
queue it invokes the idle hook, changes nothing else, and is evaluated again. -/
def Obligations.EnqueueAppendsOrSpins : Prop :=
  ∀ (d : Byte) (s : State),
    (s.tx.queue.length ≠ s.cfg.nTx →
      exec (.enqueue d) s = .next
        (State.done { s with tx := { s.tx with queue := s.tx.queue ++ [d], busy := true } } 0x000)) ∧
    (s.tx.queue.length = s.cfg.nTx → exec (.enqueue d) s = .next (s.spun (.enqueue d) .zero))

/-- R121: FLUSH answers 0x000 as soon as `tx_busy` is 0, changing nothing else, and spins with the idle hook while it
is 1. -/
def Obligations.FlushWaitsForTheTransmitter : Prop :=
  ∀ s : State,
    (s.tx.busy = false → exec .flush s = .next (s.done 0x000)) ∧
    (s.tx.busy = true → exec .flush s = .next (s.spun .flush .zero))

/-- R122 with 10_state.md R45: IS_BUSY answers 0x001 exactly when a byte is queued, a frame is partly sent or the last
bit is still held, else 0x000, and changes nothing. -/
def Obligations.IsBusyReportsPendingTransmission : Prop :=
  ∀ s : State,
    (s.tx.busy = true → exec .isBusy s = .next (s.done 0x001)) ∧
    (s.tx.busy = false → exec .isBusy s = .next (s.done 0x000)) ∧
    (TxOk s.cfg s.tx →
      (exec .isBusy s = .next (s.done 0x001) ↔ s.tx.queue ≠ [] ∨ s.tx.shift ≠ 0 ∨ s.tx.sub ≠ 0))

/-- R123, its four outcomes: a bit still held is only counted down; else an empty shift register and an empty queue
clear `tx_busy` and leave the pin; an empty shift register is reloaded from the queue and the start bit goes out in the
same tick; a loaded one outputs its low bit. -/
def Obligations.TxTickHoldsReloadsOutputsOrIdles : Prop :=
  ∀ (c : Config) (t : Tx),
    (1 < t.sub.toNat → txTick c t = { t with sub := t.sub - 1 }) ∧
    (t.sub.toNat ≤ 1 → t.shift = 0 → t.queue = [] → txTick c t = { t with sub := 0, busy := false }) ∧
    (∀ b bs, t.sub.toNat ≤ 1 → t.shift = 0 → t.queue = b :: bs →
      txTick c t = { t with queue := bs, out := false, shift := frame b >>> 1, sub := BitVec.ofNat 8 c.f }) ∧
    (t.sub.toNat ≤ 1 → t.shift ≠ 0 →
      txTick c t = { t with out := t.shift.getLsbD 0, shift := t.shift >>> 1, sub := BitVec.ofNat 8 c.f })

/-- 41_transmit.md R124: with T the TICK that loads a frame, frame bit `j` is on the latch from TICK `T + j × F` through
`T + (j + 1) × F - 1`; the next queued frame loads at `T + 10 × F`, and with none queued that TICK clears `tx_busy`. -/
def Obligations.FrameBitsLastExactlyFTicks : Prop :=
  ∀ (c : Config) (t : Tx) (b : Byte) (bs : List Byte), c.check = none →
    t.shift = 0 → t.sub.toNat ≤ 1 → t.queue = b :: bs →
    (∀ j k, j < 10 → k < c.f →
      (txTicks c (j * c.f + k + 1) t).out = (frame b).getLsbD j ∧
      (txTicks c (j * c.f + k + 1) t).sub.toNat = c.f - k ∧
      (txTicks c (j * c.f + k + 1) t).shift = frame b >>> (j + 1) ∧
      (txTicks c (j * c.f + k + 1) t).queue = bs ∧
      (txTicks c (j * c.f + k + 1) t).busy = t.busy) ∧
    (bs = [] →
      (txTicks c (10 * c.f + 1) t).busy = false ∧ (txTicks c (10 * c.f + 1) t).sub = 0 ∧
      (txTicks c (10 * c.f + 1) t).shift = 0 ∧ (txTicks c (10 * c.f + 1) t).out = true) ∧
    (∀ b' bs', bs = b' :: bs' →
      (txTicks c (10 * c.f + 1) t).out = false ∧ (txTicks c (10 * c.f + 1) t).sub.toNat = c.f ∧
      (txTicks c (10 * c.f + 1) t).shift = frame b' >>> 1 ∧ (txTicks c (10 * c.f + 1) t).queue = bs')

/-- 41_transmit.md R125: for n ≥ 1 bytes queued in an idle transmitter `tx_busy` is still 1 after each of the first
`10 × F × n` TICKs and is cleared by TICK number `1 + 10 × F × n`. -/
def Obligations.BusyLastsTenFTicksPerByte : Prop :=
  ∀ (c : Config) (t : Tx), c.check = none → t.shift = 0 → t.sub.toNat ≤ 1 → t.busy = true → t.queue ≠ [] →
    (∀ m, m ≤ 10 * c.f * t.queue.length → (txTicks c m t).busy = true) ∧
    (txTicks c (1 + 10 * c.f * t.queue.length) t).busy = false ∧
    (txTicks c (1 + 10 * c.f * t.queue.length) t).queue = []

/-! The receive engine. -/

/-- 42_receive.md R141: in `Idle` a low level starts a character with the counter at one and a half bit periods; a high
level changes nothing. -/
def Obligations.LowLevelInIdleStartsACharacter : Prop :=
  ∀ (c : Config) (r : Rx), r.state = .idle →
    rxTick c false r = .ok
      { r with state := .inCharacter, bits := 8, mask := 0x01, acc := 0x00
               sub := BitVec.ofNat 8 (c.f + c.f / 2), busy := true } ∧
    rxTick c true r = .ok r

/-- R142: in `InCharacter` the level is used only in the tick whose decrement reaches zero; that tick ORs the mask in
when the level is high, shifts the mask, counts the bit, reloads F, and after the last bit goes to `AwaitingStopBit`. -/
def Obligations.DataBitIsSampledWhenTheCounterRunsOut : Prop :=
  ∀ (c : Config) (level : Level) (r : Rx), r.state = .inCharacter →
    (r.sub - 1 ≠ 0 → rxTick c level r = .ok { r with sub := r.sub - 1 }) ∧
    (r.sub - 1 = 0 →
      rxTick c level r = .ok
        { r with sub := BitVec.ofNat 8 c.f, acc := r.acc ||| (if level then r.mask else 0)
                 mask := r.mask <<< 1, bits := r.bits - 1
                 state := if r.bits - 1 = 0 then .awaitingStopBit else .inCharacter })

/-- R143, R144 and 20_memory.md R77: in `AwaitingStopBit` the level is not examined; the tick whose decrement reaches
zero clears `rx_busy`, returns to `Idle` and pushes the byte, which is dropped when the ring is full. -/
def Obligations.StopWindowEndsInAPushWhateverTheLevel : Prop :=
  ∀ (c : Config) (level : Level) (r : Rx), r.state = .awaitingStopBit →
    (r.sub - 1 ≠ 0 → rxTick c level r = .ok { r with sub := r.sub - 1 }) ∧
    (r.sub - 1 = 0 → r.full c = true →
      rxTick c level r = .ok { r with sub := 0, busy := false, state := .idle }) ∧
    (r.sub - 1 = 0 → r.full c = false → r.inIdx.toNat < c.nRx →
      rxTick c level r = .ok
        { r with sub := 0, busy := false, state := .idle
                 buf := r.buf.set r.inIdx.toNat r.acc, inIdx := nextSlot c r.inIdx })

/-- 42_receive.md R145, 30_encoding.md R83: with t0 the tick that first sees the line low, data bit `k` is the level at
tick `t0 + RX_START_DELAY + k × F`; `rx_busy` is 1 from t0 through the tick before the push, and the byte is pushed at
tick `t0 + RX_START_DELAY + 8 × F` unless the ring is full; whatever the other levels are. -/
def Obligations.ReceiverAssemblesTheSampledLevels : Prop :=
  ∀ (c : Config) (levels : Nat → Level) (r : Rx), c.check = none → c.txOnly = false → r.state = .idle →
    r.inIdx.toNat < c.nRx → levels 0 = false →
    (∀ n, 1 ≤ n → n ≤ c.rxStartDelay + 8 * c.f →
      ∃ r', rxTicks c levels n r = .ok r' ∧ r'.busy = true ∧ r'.buf = r.buf ∧ r'.inIdx = r.inIdx ∧ r'.outIdx = r.outIdx) ∧
    ∃ r', rxTicks c levels (c.rxStartDelay + 8 * c.f + 1) r = .ok r' ∧
      r'.state = .idle ∧ r'.busy = false ∧ r'.outIdx = r.outIdx ∧ r'.disabled = r.disabled ∧
      (∀ k, k < 8 → r'.acc.getLsbD k = levels (c.rxStartDelay + k * c.f)) ∧
      (r.full c = true → r'.buf = r.buf ∧ r'.inIdx = r.inIdx) ∧
      (r.full c = false → r'.buf = r.buf.set r.inIdx.toNat r'.acc ∧ r'.inIdx = nextSlot c r.inIdx)

/-- 20_memory.md R75 to R77, R64: the ring delivers bytes in arrival order. A push to a ring with room appends one
unread byte and to a full ring changes nothing; a pop takes the oldest and leaves the rest; the front is the oldest; at
most N_RX - 1 bytes are unread. -/
def Obligations.ReceiveRingIsAFifoThatDropsTheNewest : Prop :=
  ∀ (c : Config) (r : Rx), c.check = none → c.txOnly = false → RxOk c r →
    r.count c ≤ c.nRx - 1 ∧
    (r.full c = true ↔ r.count c = c.nRx - 1) ∧ (r.empty = true ↔ r.count c = 0) ∧
    (∀ b, r.full c = true → r.push c b = .ok r) ∧
    (∀ b, r.full c = false →
      ∃ r', r.push c b = .ok r' ∧ r'.unreadBytes c = r.unreadBytes c ++ [some b] ∧
        r'.inIdx.toNat = (r.inIdx.toNat + 1) % c.nRx ∧ r'.outIdx = r.outIdx) ∧
    (r.empty = false →
      ∃ v r', r.pop c = .ok (v, r') ∧ r.front c = .ok v ∧ r.unreadBytes c = some v :: r'.unreadBytes c ∧
        r'.outIdx.toNat = (r.outIdx.toNat + 1) % c.nRx ∧ r'.inIdx = r.inIdx ∧ r'.buf = r.buf)

/-- 42_receive.md R146, R151: AVAILABLE answers the index difference modulo N_RX, at most N_RX - 1 and never more than
127, and changes nothing; in the TX_ONLY variant it answers 0. -/
def Obligations.AvailableAnswersTheUnreadCount : Prop :=
  ∀ s : State, s.cfg.check = none →
    (s.cfg.txOnly = false → s.rx.inIdx.toNat < s.cfg.nRx → s.rx.outIdx.toNat < s.cfg.nRx →
      exec .available s = .next (s.done (BitVec.ofNat 9 (s.rx.count s.cfg))) ∧
      s.rx.count s.cfg ≤ s.cfg.nRx - 1 ∧ s.rx.count s.cfg ≤ 127) ∧
    (s.cfg.txOnly = true → exec .available s = .next (s.done 0x000))

/-- 42_receive.md R147: READ of an empty queue answers 0x100 and changes nothing; else it answers the byte at `rx_out`
and advances `rx_out` by one slot, and changes nothing else. -/
def Obligations.ReadPopsTheOldestByte : Prop :=
  ∀ s : State, s.cfg.txOnly = false →
    (s.rx.inIdx = s.rx.outIdx → exec .read s = .next (s.done 0x100)) ∧
    (∀ v, s.rx.inIdx ≠ s.rx.outIdx → s.rx.outIdx.toNat < s.cfg.nRx → s.rx.buf.get s.rx.outIdx.toNat = some v →
      exec .read s = .next
        (State.done { s with rx := { s.rx with outIdx := BitVec.ofNat 8 ((s.rx.outIdx.toNat + 1) % s.cfg.nRx) } }
          (v.zeroExtend 9)))

/-- 42_receive.md R148: PEEK answers as READ does and changes nothing; a READ right after it answers the same word, and a
TICK in between does not change the front byte. -/
def Obligations.PeekShowsTheByteReadWouldPop : Prop :=
  ∀ s : State, s.cfg.txOnly = false →
    (s.rx.inIdx = s.rx.outIdx → exec .peek s = .next (s.done 0x100)) ∧
    (∀ v, s.rx.inIdx ≠ s.rx.outIdx → s.rx.outIdx.toNat < s.cfg.nRx → s.rx.buf.get s.rx.outIdx.toNat = some v →
      exec .peek s = .next (s.done (v.zeroExtend 9)) ∧
      (∃ t, exec .read (s.done (v.zeroExtend 9)) = .next t ∧ t.out = some (.response (v.zeroExtend 9))) ∧
      ∀ u, takeTick (s.done (v.zeroExtend 9)) = .next u → exec .peek u = .next (u.done (v.zeroExtend 9)))

/-- 10_state.md R34 with U7, 20_memory.md R60: READ and PEEK of an unread slot that nothing has written stop with the
named fault, and so do they for a slot that does not exist. Both are the model's choice (log 11); no run from reset
reaches them. -/
def Obligations.UnwrittenRingSlotFaults : Prop :=
  ∀ s : State, s.cfg.txOnly = false → s.rx.inIdx ≠ s.rx.outIdx →
    (s.rx.outIdx.toNat < s.cfg.nRx → s.rx.buf.get s.rx.outIdx.toNat = none →
      exec .read s = .fault (.rxSlotUnwritten s.rx.outIdx.toNat) ∧
      exec .peek s = .fault (.rxSlotUnwritten s.rx.outIdx.toNat)) ∧
    (s.cfg.nRx ≤ s.rx.outIdx.toNat →
      exec .read s = .fault (.rxSlotAbsent s.rx.outIdx.toNat) ∧
      exec .peek s = .fault (.rxSlotAbsent s.rx.outIdx.toNat))

/-- 42_receive.md R149: RX_ENABLE clears `rx_disabled`, touches nothing else and answers 0x000. -/
def Obligations.RxEnableClearsTheDisabledFlag : Prop :=
  ∀ s : State, s.cfg.txOnly = false →
    exec .rxEnable s = .next (State.done { s with rx := { s.rx with disabled := false } } 0x000)

/-- 42_receive.md R150: RX_DISABLE spins with the idle hook while `rx_busy` is 1; else it sets `rx_disabled`, zeroes
both indices and answers 0x000; AVAILABLE then answers 0 and READ and PEEK "none". -/
def Obligations.RxDisableWaitsThenEmptiesTheQueue : Prop :=
  ∀ s : State, s.cfg.txOnly = false →
    (s.rx.busy = true → exec .rxDisable s = .next (s.spun .rxDisable .zero)) ∧
    (s.rx.busy = false →
      exec .rxDisable s = .next
        (State.done { s with rx := { s.rx with disabled := true, inIdx := 0, outIdx := 0 } } 0x000) ∧
      ∀ t, exec .rxDisable s = .next t →
        exec .available t = .next (t.done 0x000) ∧ exec .read t = .next (t.done 0x100) ∧
        exec .peek t = .next (t.done 0x100))

/-- 42_receive.md R151: in the TX_ONLY variant the five receive commands answer at once and change nothing, RX_DISABLE
never spins, and a TICK neither touches the receive elements nor depends on the receive line. -/
def Obligations.TxOnlyReceiveCommandsAreStubs : Prop :=
  ∀ s : State, s.cfg.txOnly = true →
    exec .available s = .next (s.done 0x000) ∧ exec .read s = .next (s.done 0x100) ∧
    exec .peek s = .next (s.done 0x100) ∧ exec .rxEnable s = .next (s.done 0x000) ∧
    exec .rxDisable s = .next (s.done 0x000) ∧
    (∃ t, takeTick s = .next t ∧ t.rx = s.rx) ∧
    ∀ l : Line, takeTick { s with env := { s.env with line := l } } =
      onNext (fun t => { t with env := { t.env with line := l } }) (takeTick s)

/-- R20, R151: in the TX_ONLY variant no step but reset depends on the receive elements' contents or changes them: they
do not exist there. -/
def Obligations.TxOnlyRunsIgnoreTheReceiver : Prop :=
  ∀ (s : State) (r : Rx), s.cfg.txOnly = true → s.stimulus ≠ .reset →
    step (s.withRx r) = onNext (fun t => t.withRx r) (step s) ∧ ∀ t, step s = .next t → t.rx = s.rx

/-! Hooks, pins, lifecycle. -/

/-- 43_hooks.md R170, R171, R173: the hook commands write their handle and answer 0x000; any of the 256 values is
accepted; the next TICK invokes the new tick hook, and handle 0x00 is the no-op. -/
def Obligations.HookCommandsReplaceTheHandle : Prop :=
  ∀ (h : Handle) (s : State),
    exec (.setTickHook h) s = .next (State.done { s with tickHook := h } 0x000) ∧
    exec (.setIdleHook h) s = .next (State.done { s with idleHook := h } 0x000) ∧
    (∀ t u, exec (.setTickHook h) s = .next t → takeTick t = .next u → u.out = hookEvent .tickHook h) ∧
    (∀ t, exec (.setIdleHook h) s = .next t → t.tx.busy = true →
      ∃ u, exec .flush t = .next u ∧ u.out = hookEvent .idleHook h)

/-- 44_pin_sense.md R180: SENSE_BEGIN spins with the idle hook while `tx_busy` is 1; else it releases the pin to a
pulled-up input, leaves the latch, and answers 0x000. -/
def Obligations.SenseBeginReleasesThePinWhenIdle : Prop :=
  ∀ s : State,
    (s.tx.busy = false →
      exec .senseBegin s = .next (State.done { s with tx := { s.tx with oe := false, pu := true } } 0x000)) ∧
    (s.tx.busy = true → exec .senseBegin s = .next (s.spun .senseBegin .zero)) ∧
    (TxOk s.cfg s.tx → s.tx.busy = false →
      ∃ t, exec .senseBegin s = .next t ∧ t.tx.out = true)

/-- 44_pin_sense.md R181: SENSE_END drives the pin high at once, whatever the transmitter does, and answers 0x000. -/
def Obligations.SenseEndDrivesThePinHigh : Prop :=
  ∀ s : State,
    exec .senseEnd s = .next (State.done { s with tx := { s.tx with out := true, oe := true, pu := false } } 0x000)

/-- 44_pin_sense.md R182, R183: READ_PIN answers the pad's level and changes nothing: the latch when driven with no
external pull, 1 when pulled up, 0 when an external device pulls a pin that is not driven; under contention and when
floating it answers 0x000 or 0x001, and which is a free value (log 9). -/
def Obligations.ReadPinAnswersThePadLevel : Prop :=
  ∀ s : State,
    (s.tx.oe = true → s.tx.pu = false → s.env.extLow = false →
      exec .readPin s = .next (s.done (if s.tx.out then 0x001 else 0x000))) ∧
    (s.tx.oe = false → s.tx.pu = true → s.env.extLow = false → exec .readPin s = .next (s.done 0x001)) ∧
    (s.tx.oe = false → s.env.extLow = true → exec .readPin s = .next (s.done 0x000)) ∧
    (exec .readPin s = .next (s.done 0x000) ∨ exec .readPin s = .next (s.done 0x001))

/-- 44_pin_sense.md R184: nothing about the transmit engine is gated by the pin's mode: TxTick, ENQUEUE, FLUSH and
IS_BUSY act alike for every (`tx_oe`, `tx_pu`) and leave both. -/
def Obligations.SenseModeDoesNotGateTheTransmitter : Prop :=
  ∀ (s : State) (oe pu : Bool),
    txTick s.cfg { s.tx with oe := oe, pu := pu } = { txTick s.cfg s.tx with oe := oe, pu := pu } ∧
    ∀ i, (i = .flush ∨ i = .isBusy ∨ ∃ d, i = .enqueue d) →
      exec i { s with tx := { s.tx with oe := oe, pu := pu } } =
        onNext (fun t => { t with tx := { t.tx with oe := oe, pu := pu } }) (exec i s)

/-- 45_lifecycle.md R190: BEGIN makes the pin a driven output at level 1, zeroes `div_cnt`, starts the timer, changes
nothing else, and answers 0x000. -/
def Obligations.BeginArmsTheTimerAndDrivesThePin : Prop :=
  ∀ s : State,
    exec .beginCmd s = .next
      (State.done
        { s with tx := { s.tx with out := true, oe := true, pu := false }, divCnt := 0, timerRun := true } 0x000)

/-- 45_lifecycle.md R191: END first waits for `rx_busy` = 0 and then disables receive and goes to phase 1 without a hook
invocation; phase 1 waits for `tx_busy` = 0 and answers 0x000. In the TX_ONLY variant phase 0 is skipped; that phase 1
is then evaluated in the first step is the model's reading (log 14). -/
def Obligations.EndDisablesReceiveThenFlushes : Prop :=
  ∀ s : State,
    (s.phase = .zero → s.cfg.txOnly = false → s.rx.busy = true → exec .endCmd s = .next (s.spun .endCmd .zero)) ∧
    (s.phase = .zero → s.cfg.txOnly = false → s.rx.busy = false →
      exec .endCmd s = .next
        { s with rx := { s.rx with disabled := true, inIdx := 0, outIdx := 0 }
                 fg := .spin .endCmd .one, out := none }) ∧
    ((s.phase = .one ∨ s.cfg.txOnly = true) → s.tx.busy = true → exec .endCmd s = .next (s.spun .endCmd .one)) ∧
    ((s.phase = .one ∨ s.cfg.txOnly = true) → s.tx.busy = false → exec .endCmd s = .next (s.done 0x000))

/-- 30_encoding.md R87 as the hardware treats it (log 10): opcode 0xF changes no state and answers 0x000. -/
def Obligations.ReservedOpcodeDoesNothing : Prop :=
  ∀ (w : CmdWord) (s : State), opcodeField w = 0xF#4 → exec (decode w) s = .next (s.done 0x000)

/-! Rules of the whole machine. -/

/-- 20_memory.md R67: READ removes the byte it returns; IS_BUSY, AVAILABLE, PEEK and READ_PIN change no state of the
block, only the response differs from what was there, and a second one right after returns the same, except READ_PIN,
which follows the pad. -/
def Obligations.SnapshotCommandsChangeNothing : Prop :=
  (∀ (i : Instr) (s t : State), (i = .isBusy ∨ i = .available ∨ i = .peek ∨ i = .readPin) → exec i s = .next t →
    ∃ v, t = s.done v ∧ (i ≠ .readPin → exec i t = .next t)) ∧
  (∀ (s t : State), s.cfg.txOnly = false → s.rx.inIdx ≠ s.rx.outIdx → exec .read s = .next t →
    ∃ v, s.rx.buf.get s.rx.outIdx.toNat = some v ∧ t.out = some (.response (v.zeroExtend 9)) ∧
      t.rx = { s.rx with outIdx := nextSlot s.cfg s.rx.outIdx })

/-- 60_exceptions.md R212, 10_state.md R44: what a command leaves unchanged. No command writes the shift register, the
sub-bit counters, the receive state machine or the ring's storage; each other element is written only by the commands
named for it. -/
def Obligations.CommandsWriteOnlyForegroundState : Prop :=
  ∀ (i : Instr) (s t : State), exec i s = .next t →
    (t.cfg = s.cfg ∧ t.env = s.env ∧ t.tickRun = s.tickRun ∧ t.tx.shift = s.tx.shift ∧ t.tx.sub = s.tx.sub ∧
      t.rx.state = s.rx.state ∧ t.rx.bits = s.rx.bits ∧ t.rx.mask = s.rx.mask ∧ t.rx.acc = s.rx.acc ∧
      t.rx.sub = s.rx.sub ∧ t.rx.busy = s.rx.busy ∧ ∀ a, t.rx.buf.get a = s.rx.buf.get a) ∧
    ((∀ d, i ≠ .enqueue d) → t.tx.queue = s.tx.queue ∧ t.tx.busy = s.tx.busy) ∧
    (∀ d, i = .enqueue d → (t.tx.queue = s.tx.queue ∧ t.tx.busy = s.tx.busy) ∨ (t.tx.queue = s.tx.queue ++ [d] ∧ t.tx.busy = true)) ∧
    (i ≠ .beginCmd → i ≠ .senseEnd → t.tx.out = s.tx.out ∧
      (i ≠ .senseBegin → t.tx.oe = s.tx.oe ∧ t.tx.pu = s.tx.pu)) ∧
    (i ≠ .rxDisable → i ≠ .endCmd → t.rx.inIdx = s.rx.inIdx ∧
      (i ≠ .read → t.rx.outIdx = s.rx.outIdx) ∧ (i ≠ .rxEnable → t.rx.disabled = s.rx.disabled)) ∧
    (i ≠ .beginCmd → t.timerRun = s.timerRun ∧ t.divCnt = s.divCnt) ∧
    ((∀ h, i ≠ .setTickHook h) → t.tickHook = s.tickHook) ∧
    ((∀ h, i ≠ .setIdleHook h) → t.idleHook = s.idleHook)

/-- 60_exceptions.md R212, 10_state.md R44: what a TICK leaves unchanged. It takes at most the front of the transmit
queue, never sets `tx_busy`, never writes the pin's direction, `rx_disabled` or `rx_out`, and stores at most the byte at
slot `rx_in`: every other slot, and with no push every slot, reads as before. -/
def Obligations.TickWritesOnlyTickState : Prop :=
  ∀ s t : State, takeTick s = .next t →
    (t.tx.queue = s.tx.queue ∨ ∃ b, s.tx.queue = b :: t.tx.queue) ∧
    (t.tx.busy = true → s.tx.busy = true) ∧ t.tx.oe = s.tx.oe ∧ t.tx.pu = s.tx.pu ∧
    t.rx.disabled = s.rx.disabled ∧ t.rx.outIdx = s.rx.outIdx ∧
    (∀ a, a ≠ s.rx.inIdx.toNat → t.rx.buf.get a = s.rx.buf.get a) ∧
    (¬(s.cfg.txOnly = false ∧ s.rx.disabled = false ∧ s.rx.state = .awaitingStopBit ∧ s.rx.sub = 1 ∧
        s.rx.full s.cfg = false) →
      t.rx.inIdx = s.rx.inIdx ∧ ∀ a, t.rx.buf.get a = s.rx.buf.get a)

/-- 42_receive.md R140: while `rx_disabled` = 1 no step but those that write it, or reset, changes any receive
element. -/
def Obligations.DisabledReceiverIsFrozen : Prop :=
  ∀ s t : State, Inv s → s.rx.disabled = true → step s = .next t → s.stimulus ≠ .reset →
    t.rx = s.rx ∨ t.rx = { s.rx with disabled := false }

/-- 70_reset_and_hazards.md R234: a blocking command that waits for the transmitter before BEGIN spins forever: no step
but reset ends it, and every evaluation invokes the idle hook. -/
def Obligations.BlockingBeforeBeginHangs : Prop :=
  ∀ s t : State, BlockedBeforeBegin s → step s = .next t → s.stimulus ≠ .reset →
    BlockedBeforeBegin t ∧ t.fg = s.fg ∧
    (s.stimulus = .foreground → s.tickRun = false → s.idleRun = false → t.out = hookEvent .idleHook s.idleHook)

/-- 10_state.md R20 to R47, 70_reset_and_hazards.md R231: every legal instance satisfies the invariant after reset. -/
def Obligations.ResetSatisfiesTheInvariant : Prop :=
  ∀ c : Config, c.check = none → Inv (State.resetOf c)

/-- 10_state.md R45 to R47, R21 to R41: every step from a state of the invariant that answers a next state leads to one
of the invariant, whatever the environment does. -/
def Obligations.StepKeepsTheInvariant : Prop :=
  ∀ s t : State, Inv s → step s = .next t → Inv t

/-- 60_exceptions.md R200: no operation raises an error at run time. From a state of the invariant no step ends in a
fault, every command and every TICK answers a next state, and a step is refused only for the environment's two misuses:
a clock edge at which a TICK is due while the last one's hook body runs (U2), and a word offered with `fg` = Ready while
a hook body runs (U3). That these two are refusals is the model's choice (log 6, log 7). -/
def Obligations.NoStepFaultsUnderTheInvariant : Prop :=
  ∀ s : State, Inv s →
    Safe s ∧ (∀ i, ∃ t, exec i s = .next t) ∧ (∃ t, takeTick s = .next t) ∧
    ∀ r, step s = .refused r →
      (r = .tickOverrun ∧ s.stimulus = .clock ∧ s.timerRun = true ∧ s.divCnt = s.cfg.top ∧ s.tickRun = true) ∨
      (∃ w, r = .commandFromHook w ∧ s.stimulus = .offer w ∧ s.fg = .ready ∧ (s.tickRun = true ∨ s.idleRun = true))

/-- 30_encoding.md R83: a byte framed by the transmitter and decoded by the receiver over a looped-back line yields the
original value, for every byte and every legal instance, when the ring has room for it. -/
def Obligations.LoopbackRoundTripYieldsTheByte : Prop :=
  ∀ (s : State) (b : Byte) (bs : List Byte), s.cfg.check = none → s.cfg.txOnly = false →
    s.env.line = .loopback → s.env.extLow = false → s.tx.oe = true →
    s.tx.queue = b :: bs → s.tx.shift = 0 → s.tx.sub.toNat ≤ 1 →
    s.rx.state = .idle → s.rx.disabled = false → s.rx.inIdx.toNat < s.cfg.nRx → s.rx.full s.cfg = false →
    ∃ t, takeTicks (s.cfg.rxStartDelay + 8 * s.cfg.f + 1) s = .next t ∧
      t.rx.buf.get s.rx.inIdx.toNat = some b ∧ t.rx.inIdx = nextSlot s.cfg s.rx.inIdx ∧
      t.rx.outIdx = s.rx.outIdx ∧ t.rx.state = .idle ∧ t.rx.busy = false ∧ t.tx.queue = bs ∧
      ∀ a, a ≠ s.rx.inIdx.toNat → t.rx.buf.get a = s.rx.buf.get a

/-- 95_test_vectors.md V6, 20_memory.md R64: over a looped-back line every sequence of queued bytes that the ring has
room for is received complete and in order. -/
def Obligations.LoopbackDeliversTheSequenceInOrder : Prop :=
  ∀ s : State, Inv s → s.cfg.txOnly = false →
    s.env.line = .loopback → s.env.extLow = false → s.tx.oe = true →
    s.tx.shift = 0 → s.tx.sub.toNat ≤ 1 → s.rx.state = .idle → s.rx.disabled = false →
    s.rx.count s.cfg + s.tx.queue.length ≤ s.cfg.nRx - 1 →
    ∃ t, takeTicks (10 * s.cfg.f * s.tx.queue.length) s = .next t ∧ t.tx.queue = [] ∧
      t.rx.unreadBytes s.cfg = s.rx.unreadBytes s.cfg ++ s.tx.queue.map some
end

