-- ==== Sys2Proof/Laws/State.lean ====
section
/-! SUPPORT. One lemma per field per named update of State, Tx and Rx, so that no later proof unfolds a record update. -/

namespace Sys2Proof.Machine

variable (s : State) (v : RspWord) (c : Instr) (p : Phase) (t : Tx) (r : Rx)

/-! `State.done` and `State.respond` are one update. -/

@[simp] theorem State.respond_eq_done : s.respond v = s.done v := rfl
@[simp] theorem State.done_cfg : (s.done v).cfg = s.cfg := rfl
@[simp] theorem State.done_tx : (s.done v).tx = s.tx := rfl
@[simp] theorem State.done_rx : (s.done v).rx = s.rx := rfl
@[simp] theorem State.done_timerRun : (s.done v).timerRun = s.timerRun := rfl
@[simp] theorem State.done_divCnt : (s.done v).divCnt = s.divCnt := rfl
@[simp] theorem State.done_tickHook : (s.done v).tickHook = s.tickHook := rfl
@[simp] theorem State.done_idleHook : (s.done v).idleHook = s.idleHook := rfl
@[simp] theorem State.done_fg : (s.done v).fg = .ready := rfl
@[simp] theorem State.done_tickRun : (s.done v).tickRun = s.tickRun := rfl
@[simp] theorem State.done_idleRun : (s.done v).idleRun = s.idleRun := rfl
@[simp] theorem State.done_out : (s.done v).out = some (.response v) := rfl
@[simp] theorem State.done_env : (s.done v).env = s.env := rfl

/-! `State.spun`, which is what `State.spin` answers. -/

@[simp] theorem State.spun_cfg : (s.spun c p).cfg = s.cfg := rfl
@[simp] theorem State.spun_tx : (s.spun c p).tx = s.tx := rfl
@[simp] theorem State.spun_rx : (s.spun c p).rx = s.rx := rfl
@[simp] theorem State.spun_timerRun : (s.spun c p).timerRun = s.timerRun := rfl
@[simp] theorem State.spun_divCnt : (s.spun c p).divCnt = s.divCnt := rfl
@[simp] theorem State.spun_tickHook : (s.spun c p).tickHook = s.tickHook := rfl
@[simp] theorem State.spun_idleHook : (s.spun c p).idleHook = s.idleHook := rfl
@[simp] theorem State.spun_fg : (s.spun c p).fg = .spin c p := rfl
@[simp] theorem State.spun_tickRun : (s.spun c p).tickRun = s.tickRun := rfl
@[simp] theorem State.spun_idleRun :
    (s.spun c p).idleRun = if s.idleHook = 0x00 then s.idleRun else true := rfl
@[simp] theorem State.spun_out : (s.spun c p).out = hookEvent .idleHook s.idleHook := rfl
@[simp] theorem State.spun_env : (s.spun c p).env = s.env := rfl

@[simp] theorem State.spin_eq_spun : s.spin c p = s.spun c p := by
  unfold State.spin State.invokeIdleHook State.spun hookEvent
  by_cases h : s.idleHook = 0#8 <;> simp [h]

/-! `State.goPhase`. -/

@[simp] theorem State.goPhase_cfg : (s.goPhase c p).cfg = s.cfg := rfl
@[simp] theorem State.goPhase_tx : (s.goPhase c p).tx = s.tx := rfl
@[simp] theorem State.goPhase_rx : (s.goPhase c p).rx = s.rx := rfl
@[simp] theorem State.goPhase_timerRun : (s.goPhase c p).timerRun = s.timerRun := rfl
@[simp] theorem State.goPhase_divCnt : (s.goPhase c p).divCnt = s.divCnt := rfl
@[simp] theorem State.goPhase_tickHook : (s.goPhase c p).tickHook = s.tickHook := rfl
@[simp] theorem State.goPhase_idleHook : (s.goPhase c p).idleHook = s.idleHook := rfl
@[simp] theorem State.goPhase_fg : (s.goPhase c p).fg = .spin c p := rfl
@[simp] theorem State.goPhase_tickRun : (s.goPhase c p).tickRun = s.tickRun := rfl
@[simp] theorem State.goPhase_idleRun : (s.goPhase c p).idleRun = s.idleRun := rfl
@[simp] theorem State.goPhase_out : (s.goPhase c p).out = none := rfl
@[simp] theorem State.goPhase_env : (s.goPhase c p).env = s.env := rfl

/-! `State.withTx` and `State.withRx`. -/

@[simp] theorem State.withTx_cfg : (s.withTx t).cfg = s.cfg := rfl
@[simp] theorem State.withTx_tx : (s.withTx t).tx = t := rfl
@[simp] theorem State.withTx_rx : (s.withTx t).rx = s.rx := rfl
@[simp] theorem State.withTx_timerRun : (s.withTx t).timerRun = s.timerRun := rfl
@[simp] theorem State.withTx_divCnt : (s.withTx t).divCnt = s.divCnt := rfl
@[simp] theorem State.withTx_tickHook : (s.withTx t).tickHook = s.tickHook := rfl
@[simp] theorem State.withTx_idleHook : (s.withTx t).idleHook = s.idleHook := rfl
@[simp] theorem State.withTx_fg : (s.withTx t).fg = s.fg := rfl
@[simp] theorem State.withTx_tickRun : (s.withTx t).tickRun = s.tickRun := rfl
@[simp] theorem State.withTx_idleRun : (s.withTx t).idleRun = s.idleRun := rfl
@[simp] theorem State.withTx_out : (s.withTx t).out = s.out := rfl
@[simp] theorem State.withTx_env : (s.withTx t).env = s.env := rfl
@[simp] theorem State.withRx_cfg : (s.withRx r).cfg = s.cfg := rfl
@[simp] theorem State.withRx_tx : (s.withRx r).tx = s.tx := rfl
@[simp] theorem State.withRx_rx : (s.withRx r).rx = r := rfl
@[simp] theorem State.withRx_timerRun : (s.withRx r).timerRun = s.timerRun := rfl
@[simp] theorem State.withRx_divCnt : (s.withRx r).divCnt = s.divCnt := rfl
@[simp] theorem State.withRx_tickHook : (s.withRx r).tickHook = s.tickHook := rfl
@[simp] theorem State.withRx_idleHook : (s.withRx r).idleHook = s.idleHook := rfl
@[simp] theorem State.withRx_fg : (s.withRx r).fg = s.fg := rfl
@[simp] theorem State.withRx_tickRun : (s.withRx r).tickRun = s.tickRun := rfl
@[simp] theorem State.withRx_idleRun : (s.withRx r).idleRun = s.idleRun := rfl
@[simp] theorem State.withRx_out : (s.withRx r).out = s.out := rfl
@[simp] theorem State.withRx_env : (s.withRx r).env = s.env := rfl

/-! `State.opened` and `State.counted`: only the event and the environment's own fields differ. -/

@[simp] theorem State.opened_cfg : s.opened.cfg = s.cfg := rfl
@[simp] theorem State.opened_tx : s.opened.tx = s.tx := rfl
@[simp] theorem State.opened_rx : s.opened.rx = s.rx := rfl
@[simp] theorem State.opened_timerRun : s.opened.timerRun = s.timerRun := rfl
@[simp] theorem State.opened_divCnt : s.opened.divCnt = s.divCnt := rfl
@[simp] theorem State.opened_tickHook : s.opened.tickHook = s.tickHook := rfl
@[simp] theorem State.opened_idleHook : s.opened.idleHook = s.idleHook := rfl
@[simp] theorem State.opened_fg : s.opened.fg = s.fg := rfl
@[simp] theorem State.opened_tickRun : s.opened.tickRun = s.tickRun := rfl
@[simp] theorem State.opened_idleRun : s.opened.idleRun = s.idleRun := rfl
@[simp] theorem State.opened_out : s.opened.out = none := rfl
@[simp] theorem State.opened_port : s.opened.env.port = s.env.port := rfl
@[simp] theorem State.opened_line : s.opened.env.line = s.env.line := rfl
@[simp] theorem State.opened_extLow : s.opened.env.extLow = s.env.extLow := rfl
@[simp] theorem State.opened_now : s.opened.env.now = s.env.now := rfl
@[simp] theorem State.counted_cfg : s.counted.cfg = s.cfg := rfl
@[simp] theorem State.counted_tx : s.counted.tx = s.tx := rfl
@[simp] theorem State.counted_rx : s.counted.rx = s.rx := rfl
@[simp] theorem State.counted_timerRun : s.counted.timerRun = s.timerRun := rfl
@[simp] theorem State.counted_divCnt : s.counted.divCnt = s.divCnt := rfl
@[simp] theorem State.counted_tickHook : s.counted.tickHook = s.tickHook := rfl
@[simp] theorem State.counted_idleHook : s.counted.idleHook = s.idleHook := rfl
@[simp] theorem State.counted_fg : s.counted.fg = s.fg := rfl
@[simp] theorem State.counted_tickRun : s.counted.tickRun = s.tickRun := rfl
@[simp] theorem State.counted_idleRun : s.counted.idleRun = s.idleRun := rfl
@[simp] theorem State.counted_out : s.counted.out = s.out := rfl
@[simp] theorem State.counted_script : s.counted.env.script = s.env.script := rfl
@[simp] theorem State.counted_port : s.counted.env.port = s.env.port := rfl
@[simp] theorem State.counted_line : s.counted.env.line = s.env.line := rfl
@[simp] theorem State.counted_extLow : s.counted.env.extLow = s.env.extLow := rfl

/-! `State.invokeTickHook`: the event, the running body, and nothing else. -/

@[simp] theorem State.invokeTickHook_out : s.invokeTickHook.out = hookEvent .tickHook s.tickHook := by
  unfold State.invokeTickHook hookEvent; split <;> rfl
@[simp] theorem State.invokeTickHook_tickRun :
    s.invokeTickHook.tickRun = if s.tickHook = 0x00 then s.tickRun else true := by
  unfold State.invokeTickHook; split <;> rfl
@[simp] theorem State.invokeTickHook_cfg : s.invokeTickHook.cfg = s.cfg := by
  unfold State.invokeTickHook; split <;> rfl
@[simp] theorem State.invokeTickHook_tx : s.invokeTickHook.tx = s.tx := by
  unfold State.invokeTickHook; split <;> rfl
@[simp] theorem State.invokeTickHook_rx : s.invokeTickHook.rx = s.rx := by
  unfold State.invokeTickHook; split <;> rfl
@[simp] theorem State.invokeTickHook_timerRun : s.invokeTickHook.timerRun = s.timerRun := by
  unfold State.invokeTickHook; split <;> rfl
@[simp] theorem State.invokeTickHook_divCnt : s.invokeTickHook.divCnt = s.divCnt := by
  unfold State.invokeTickHook; split <;> rfl
@[simp] theorem State.invokeTickHook_tickHook : s.invokeTickHook.tickHook = s.tickHook := by
  unfold State.invokeTickHook; split <;> rfl
@[simp] theorem State.invokeTickHook_idleHook : s.invokeTickHook.idleHook = s.idleHook := by
  unfold State.invokeTickHook; split <;> rfl
@[simp] theorem State.invokeTickHook_fg : s.invokeTickHook.fg = s.fg := by
  unfold State.invokeTickHook; split <;> rfl
@[simp] theorem State.invokeTickHook_idleRun : s.invokeTickHook.idleRun = s.idleRun := by
  unfold State.invokeTickHook; split <;> rfl
@[simp] theorem State.invokeTickHook_env : s.invokeTickHook.env = s.env := by
  unfold State.invokeTickHook; split <;> rfl

/-! `State.hookDone`: the running body, and nothing else. -/

@[simp] theorem State.hookDone_tickRun : s.hookDone.tickRun = false := by
  unfold State.hookDone; split <;> simp_all
@[simp] theorem State.hookDone_idleRun : s.hookDone.idleRun = (s.tickRun && s.idleRun) := by
  unfold State.hookDone; split <;> simp_all
@[simp] theorem State.hookDone_cfg : s.hookDone.cfg = s.cfg := by
  unfold State.hookDone; split <;> rfl
@[simp] theorem State.hookDone_tx : s.hookDone.tx = s.tx := by
  unfold State.hookDone; split <;> rfl
@[simp] theorem State.hookDone_rx : s.hookDone.rx = s.rx := by
  unfold State.hookDone; split <;> rfl
@[simp] theorem State.hookDone_timerRun : s.hookDone.timerRun = s.timerRun := by
  unfold State.hookDone; split <;> rfl
@[simp] theorem State.hookDone_divCnt : s.hookDone.divCnt = s.divCnt := by
  unfold State.hookDone; split <;> rfl
@[simp] theorem State.hookDone_tickHook : s.hookDone.tickHook = s.tickHook := by
  unfold State.hookDone; split <;> rfl
@[simp] theorem State.hookDone_idleHook : s.hookDone.idleHook = s.idleHook := by
  unfold State.hookDone; split <;> rfl
@[simp] theorem State.hookDone_fg : s.hookDone.fg = s.fg := by
  unfold State.hookDone; split <;> rfl
@[simp] theorem State.hookDone_out : s.hookDone.out = s.out := by
  unfold State.hookDone; split <;> rfl
@[simp] theorem State.hookDone_env : s.hookDone.env = s.env := by
  unfold State.hookDone; split <;> rfl

end Sys2Proof.Machine
end

