-- ==== Sys2Proof/Laws/Ops.lean ====
section
/-! SUPPORT. What the shared operations do: the ring's memory keeps its canonical form and obeys read after write, the
queue and pin primitives touch only what they name. -/

namespace Sys2Proof.Machine

/-! The memory. -/

@[simp] theorem Memory.get_nil (a : Nat) : Memory.get [] a = none := rfl

/-- Read after write, the same slot. -/
@[simp] theorem Memory.get_set_same (m : Memory) (a : Nat) (v : Byte) : (m.set a v).get a = some v := by
  induction m with
  | nil => simp [Memory.set, Memory.get]
  | cons x m ih =>
    obtain ⟨k, w⟩ := x
    unfold Memory.set
    split
    · simp [Memory.get]
    · split
      · simp [Memory.get]
      · rename_i h1 h2
        simp [Memory.get, Ne.symm h2, ih]

/-- A write leaves every other slot alone. -/
theorem Memory.get_set_other (m : Memory) (a b : Nat) (v : Byte) (h : b ≠ a) : (m.set a v).get b = m.get b := by
  induction m with
  | nil => simp [Memory.set, Memory.get, Ne.symm h]
  | cons x m ih =>
    obtain ⟨k, w⟩ := x
    unfold Memory.set
    split
    · simp [Memory.get, Ne.symm h]
    · split
      · rename_i h1 h2
        subst h2
        simp [Memory.get, Ne.symm h]
      · simp [Memory.get, ih]

/-- The cells of a written memory are its old ones and the new one. -/
theorem Memory.mem_set (m : Memory) (a : Nat) (v : Byte) (x : Host.Cell) (h : x ∈ m.set a v) : x = (a, v) ∨ x ∈ m := by
  induction m with
  | nil => simpa [Memory.set] using h
  | cons y m ih =>
    obtain ⟨k, w⟩ := y
    unfold Memory.set at h
    split at h
    · simpa using h
    · split at h
      · rcases List.mem_cons.1 h with h | h
        · exact .inl h
        · exact .inr (List.mem_cons_of_mem _ h)
      · rcases List.mem_cons.1 h with h | h
        · exact .inr (h ▸ List.mem_cons_self)
        · exact (ih h).imp id (List.mem_cons_of_mem _)

/-- A write keeps the canonical form. -/
theorem Memory.set_wf (m : Memory) (a : Nat) (v : Byte) (h : m.wf) : (m.set a v).wf := by
  induction m with
  | nil => simp [Memory.set, Memory.wf]
  | cons x m ih =>
    obtain ⟨k, w⟩ := x
    obtain ⟨hk, hm⟩ := List.pairwise_cons.1 h
    unfold Memory.set
    split
    · rename_i hak
      refine List.pairwise_cons.2 ⟨?_, h⟩
      intro y hy
      rcases List.mem_cons.1 hy with rfl | hy
      · exact hak
      · exact Nat.lt_trans hak (hk y hy)
    · split
      · rename_i _ hak
        subst hak
        exact List.pairwise_cons.2 ⟨hk, hm⟩
      · rename_i h1 h2
        refine List.pairwise_cons.2 ⟨?_, ih hm⟩
        intro y hy
        rcases Memory.mem_set m a v y hy with rfl | hy
        · show k < a
          omega
        · exact hk y hy

/-- Reset memory is canonical. -/
theorem State.reset_buf_wf : State.reset.rx.buf.wf := List.Pairwise.nil

/-- A ring write that answers a memory wrote an existing slot. -/
theorem memWrite_ok {c : Config} {m m' : Memory} {i : Nat} {v : Byte} (h : memWrite c m i v = .ok m') :
    i < c.nRx ∧ m' = m.set i v := by
  unfold memWrite at h
  split at h
  · exact ⟨‹_›, by injection h with h; exact h.symm⟩
  · cases h

/-- A ring read that answers a byte read a written, existing slot. -/
theorem memRead_ok {c : Config} {m : Memory} {i : Nat} {v : Byte} (h : memRead c m i = .ok v) :
    i < c.nRx ∧ m.get i = some v := by
  unfold memRead at h
  split at h
  · cases hg : m.get i with
    | none => rw [hg] at h; cases h
    | some w => rw [hg] at h; injection h with h; exact ⟨‹_›, by rw [h]⟩
  · cases h

/-- A written, existing slot is read. -/
theorem memRead_of_get {c : Config} {m : Memory} {i : Nat} {v : Byte} (hi : i < c.nRx) (h : m.get i = some v) :
    memRead c m i = .ok v := by
  simp [memRead, hi, h]

/-! The ring: what a push that answers can do. -/

theorem Rx.push_cases {c : Config} {r r' : Rx} {b : Byte} (h : r.push c b = .ok r') :
    (r.full c = true ∧ r' = r) ∨
    (r.full c = false ∧ r.inIdx.toNat < c.nRx ∧
      r' = { r with buf := r.buf.set r.inIdx.toNat b, inIdx := nextSlot c r.inIdx }) := by
  unfold Rx.push at h
  split at h
  · injection h with h
    exact .inl ⟨‹_›, h.symm⟩
  · rename_i hf
    cases hw : memWrite c r.buf r.inIdx.toNat b with
    | error e => rw [hw] at h; cases h
    | ok m =>
      rw [hw] at h
      injection h with h
      obtain ⟨hi, rfl⟩ := memWrite_ok hw
      exact .inr ⟨by simpa using hf, hi, h.symm⟩

theorem Rx.push_of_lt {c : Config} (r : Rx) (b : Byte) (h : r.inIdx.toNat < c.nRx) :
    r.push c b = .ok (if r.full c then r
      else { r with buf := r.buf.set r.inIdx.toNat b, inIdx := nextSlot c r.inIdx }) := by
  unfold Rx.push memWrite
  by_cases hf : r.full c = true <;> simp [hf, h]

theorem Rx.pop_of_get {c : Config} {r : Rx} {v : Byte} (hi : r.outIdx.toNat < c.nRx)
    (h : r.buf.get r.outIdx.toNat = some v) :
    r.pop c = .ok (v, { r with outIdx := nextSlot c r.outIdx }) := by
  simp [Rx.pop, memRead_of_get hi h]

theorem Rx.front_of_get {c : Config} {r : Rx} {v : Byte} (hi : r.outIdx.toNat < c.nRx)
    (h : r.buf.get r.outIdx.toNat = some v) : r.front c = .ok v :=
  memRead_of_get hi h

/-! The transmit part of the TICK never touches the pin's direction. -/

@[simp] theorem Tx.output_oe (c : Config) (t : Tx) : (t.output c).oe = t.oe := rfl
@[simp] theorem Tx.output_pu (c : Config) (t : Tx) : (t.output c).pu = t.pu := rfl
@[simp] theorem Tx.output_queue (c : Config) (t : Tx) : (t.output c).queue = t.queue := rfl
@[simp] theorem Tx.output_busy (c : Config) (t : Tx) : (t.output c).busy = t.busy := rfl
@[simp] theorem Tx.output_sub (c : Config) (t : Tx) : (t.output c).sub = BitVec.ofNat 8 c.f := rfl
@[simp] theorem Tx.output_shift (c : Config) (t : Tx) : (t.output c).shift = t.shift >>> 1 := rfl
@[simp] theorem Tx.output_out (c : Config) (t : Tx) : (t.output c).out = t.shift.getLsbD 0 := rfl

end Sys2Proof.Machine
end

