-- ==== Sys2Proof/Machine/Script.lean ====
section
/-! DEFINITION. The text of a command and the script directives (30_encoding.md R90, R91), under the schedule of
95_test_vectors.md section 1. They stand beside the machine: step does not use them (log 21). -/

namespace Sys2Proof

/-- The mnemonic of a command, as the opcode map names it (R86). -/
def Instr.mnemonic : Instr → String
  | .beginCmd => "BEGIN"
  | .endCmd => "END"
  | .enqueue _ => "ENQUEUE"
  | .flush => "FLUSH"
  | .isBusy => "IS_BUSY"
  | .available => "AVAILABLE"
  | .read => "READ"
  | .peek => "PEEK"
  | .rxEnable => "RX_ENABLE"
  | .rxDisable => "RX_DISABLE"
  | .senseBegin => "SENSE_BEGIN"
  | .senseEnd => "SENSE_END"
  | .readPin => "READ_PIN"
  | .setTickHook _ => "SET_TICK_HOOK"
  | .setIdleHook _ => "SET_IDLE_HOOK"
  | .reservedF => "RESERVED_F"

/-- A hexadecimal digit. -/
def hexDigit (n : Nat) : Char :=
  if n < 10 then Char.ofNat ('0'.toNat + n) else Char.ofNat ('A'.toNat + (n - 10))

/-- The assembler text of a command (R90): its mnemonic, and one space and the operand as `0x..`. -/
def Instr.text (i : Instr) : String :=
  if i.usesOperand then
    i.mnemonic ++ " 0x" ++ String.ofList [hexDigit (i.operand.toNat / 16), hexDigit (i.operand.toNat % 16)]
  else i.mnemonic

/-- The value of a hexadecimal digit. -/
def hexValue (ch : Char) : Option Nat :=
  if '0' ≤ ch ∧ ch ≤ '9' then some (ch.toNat - '0'.toNat)
  else if 'A' ≤ ch ∧ ch ≤ 'F' then some (ch.toNat - 'A'.toNat + 10)
  else if 'a' ≤ ch ∧ ch ≤ 'f' then some (ch.toNat - 'a'.toNat + 10)
  else none

/-- A numeral in base `b`: at least one digit, each below `b`. -/
def numeral (b : Nat) (chs : List Char) : Option Nat :=
  if chs.isEmpty then none
  else chs.foldl (fun acc ch => acc.bind fun n => (hexValue ch).bind fun d => if d < b then some (b * n + d) else none)
    (some 0)

/-- An operand (R90): `0x41`, `65`, or a quoted character for its ASCII code; a byte. -/
def parseOperand (chs : List Char) : Option Byte :=
  let n :=
    match chs with
    | '0' :: 'x' :: ds => numeral 16 ds
    | ['\'', ch, '\''] => some ch.toNat
    | ds => numeral 10 ds
  n.bind fun n => if n < 256 then some (BitVec.ofNat 8 n) else none

/-- The commands by their mnemonics, each with the operand 0x00 where it has one (R86). -/
def commandsByMnemonic : List Instr :=
  [.beginCmd, .endCmd, .enqueue 0, .flush, .isBusy, .available, .read, .peek] ++
  [.rxEnable, .rxDisable, .senseBegin, .senseEnd, .readPin, .setTickHook 0, .setIdleHook 0]

/-- The command with its operand replaced, where it has one. -/
def Instr.withOperand (d : Byte) : Instr → Option Instr
  | .enqueue _ => some (.enqueue d)
  | .setTickHook _ => some (.setTickHook d)
  | .setIdleHook _ => some (.setIdleHook d)
  | .beginCmd => none
  | .endCmd => none
  | .flush => none
  | .isBusy => none
  | .available => none
  | .read => none
  | .peek => none
  | .rxEnable => none
  | .rxDisable => none
  | .senseBegin => none
  | .senseEnd => none
  | .readPin => none
  | .reservedF => none

/-- One line of text (R90): a mnemonic, for the three commands with an operand one space and the operand; `;` starts a
comment. -/
def parseCommand (line : String) : Option Instr :=
  let code := (line.toList.takeWhile (· ≠ ';')).reverse.dropWhile (· = ' ') |>.reverse
  let name := String.ofList (code.takeWhile (· ≠ ' '))
  let rest := code.dropWhile (· ≠ ' ')
  (commandsByMnemonic.find? (fun i => i.mnemonic == name)).bind fun i =>
    match rest with
    | [] => if i.usesOperand then none else some i
    | _ :: ds => (parseOperand ds).bind fun d => i.withOperand d

namespace Machine

/-- The lines of a script (R91). -/
inductive Directive
  /-- A command is issued and evaluated once. -/
  | command (i : Instr)
  /-- `.tick n`. -/
  | tick (n : Nat)
  /-- `.rx v`. -/
  | rx (v : Level)
  /-- `.loopback`. -/
  | loopback
  /-- `.ext low`. -/
  | extLow
  /-- `.ext release`. -/
  | extRelease
  /-- `.until_ready`. -/
  | untilReady
  deriving DecidableEq, Repr

/-- Go on from a next state; a fault or refusal ends the run. -/
def andThen (o : Host.Outcome State Fault Refusal) (k : State → Host.Outcome State Fault Refusal) :
    Host.Outcome State Fault Refusal :=
  match o with
  | .next s => k s
  | .fault e => .fault e
  | .refused r => .refused r

/-- One step with the stimulus `x`. -/
def feed (x : Stimulus) (s : State) : Host.Outcome State Fault Refusal :=
  step { s with env := { s.env with script := x :: s.env.script } }

/-- One step for each stimulus in turn. -/
def feedAll : List Stimulus → State → Host.Outcome State Fault Refusal
  | [], s => .next s
  | x :: xs, s => andThen (feed x s) (feedAll xs)

/-- The stimuli of one TICK period: DIVISOR clock edges (R101), then the hook bodies return; a `hookDone` for
which no body runs is ignored (log 5). -/
def tickPeriod (c : Config) : List Stimulus := List.replicate c.divisor .clock ++ [.hookDone, .hookDone]

/-- `n` TICK periods. -/
def ticks : Nat → State → Host.Outcome State Fault Refusal
  | 0, s => .next s
  | n + 1, s => andThen (feedAll (tickPeriod s.cfg) s) (ticks n)

/-- `.until_ready` (95_test_vectors.md section 1): an evaluation that spun is followed by one TICK and the next
evaluation, one that went to another phase (`went`) by the next evaluation at once, until the command responds. -/
def runUntilReady : Nat → Bool → State → Host.Outcome State Fault Refusal
  | 0, _, s => .next s
  | k + 1, went, s =>
    match s.fg with
    | .ready => .next s
    | .spin _ p =>
      andThen (if went then .next s else ticks 1 s) fun s1 =>
        andThen (feed .foreground s1) fun s2 => runUntilReady k (s2.phase != p) s2

/-- One line of a script; `fuel` bounds the evaluations of `.until_ready`. -/
def Directive.run (fuel : Nat) (d : Directive) (s : State) : Host.Outcome State Fault Refusal :=
  match d with
  | .command i => andThen (feed (.offer (encode i)) s) (feed .foreground)
  | .tick n => ticks n s
  | .rx v => feed (.setLine (.level v)) s
  | .loopback => feed (.setLine .loopback) s
  | .extLow => feed (.setExtLow true) s
  | .extRelease => feed (.setExtLow false) s
  | .untilReady => runUntilReady fuel (s.phase == .one && !s.cfg.txOnly) s

/-- A whole script. -/
def runScript (fuel : Nat) : List Directive → State → Host.Outcome State Fault Refusal
  | [], s => .next s
  | d :: ds, s => andThen (d.run fuel s) (runScript fuel ds)

end Machine

end Sys2Proof
end

