-- ==== Sys2Proof/Laws/PerInstr.lean ====
section
/-! SUPPORT. A fact of every command as syntax: the opcode of its canonical word, and that a command without an operand
has a zero operand byte there (30_encoding.md R86, R88). -/

namespace Sys2Proof.Laws.CanonicalWord

/-- The canonical word is `op` times 256 plus the operand byte, which is 0 where the operand is unused. -/
def Statement (i : Instr) : Prop :=
  (encode i).toNat = 256 * i.opcode.toNat + i.operand.toNat ∧ (i.usesOperand = false → i.operand = 0)

theorem encode_toNat (i : Instr) : (encode i).toNat = 256 * i.opcode.toNat + i.operand.toNat := by
  have h : i.operand.toNat < 2 ^ 8 := i.operand.isLt
  have := Nat.two_pow_add_eq_or_of_lt h i.opcode.toNat
  simp only [encode, BitVec.toNat_append, Nat.shiftLeft_eq]
  rw [Nat.mul_comm, ← this]

theorem beginCmd : Statement .beginCmd := ⟨encode_toNat _, fun _ => rfl⟩
theorem endCmd : Statement .endCmd := ⟨encode_toNat _, fun _ => rfl⟩
theorem enqueue (d : Byte) : Statement (.enqueue d) := ⟨encode_toNat _, fun h => by cases h⟩
theorem flush : Statement .flush := ⟨encode_toNat _, fun _ => rfl⟩
theorem isBusy : Statement .isBusy := ⟨encode_toNat _, fun _ => rfl⟩
theorem available : Statement .available := ⟨encode_toNat _, fun _ => rfl⟩
theorem read : Statement .read := ⟨encode_toNat _, fun _ => rfl⟩
theorem peek : Statement .peek := ⟨encode_toNat _, fun _ => rfl⟩
theorem rxEnable : Statement .rxEnable := ⟨encode_toNat _, fun _ => rfl⟩
theorem rxDisable : Statement .rxDisable := ⟨encode_toNat _, fun _ => rfl⟩
theorem senseBegin : Statement .senseBegin := ⟨encode_toNat _, fun _ => rfl⟩
theorem senseEnd : Statement .senseEnd := ⟨encode_toNat _, fun _ => rfl⟩
theorem readPin : Statement .readPin := ⟨encode_toNat _, fun _ => rfl⟩
theorem setTickHook (h : Handle) : Statement (.setTickHook h) := ⟨encode_toNat _, fun h => by cases h⟩
theorem setIdleHook (h : Handle) : Statement (.setIdleHook h) := ⟨encode_toNat _, fun h => by cases h⟩
theorem reservedF : Statement .reservedF := ⟨encode_toNat _, fun _ => rfl⟩

end Sys2Proof.Laws.CanonicalWord
end

