-- ==== Sys2Proof/Laws/Tick.lean ====
section
/-! SUPPORT. What a TICK can do, said once: the outcomes of TxTick and RxTick, and the inversion of a TICK that answers
a next state. -/

namespace Sys2Proof.Machine

/-- TxTick with `tx_sub` above 1 only counts down; else it goes on from `tx_sub` = 0. -/
theorem txTick_eq (c : Config) (t : Tx) :
    txTick c t = if 1 < t.sub.toNat then { t with sub := t.sub - 1 } else Tx.advance c { t with sub := 0 } := by
  unfold txTick
  by_cases h0 : t.sub = 0
  · have hn : ¬1 < t.sub.toNat := by rw [h0]; decide
    rw [if_pos h0, if_neg hn, ← h0]
  · rw [if_neg h0]
    by_cases h1 : t.sub - 1 = 0
    · have hn : ¬1 < t.sub.toNat := by bv_omega
      rw [if_pos h1, if_neg hn, h1]
    · have hp : 1 < t.sub.toNat := by bv_omega
      rw [if_neg h1, if_pos hp]

/-- From `tx_sub` = 0 the transmitter goes idle, reloads and outputs the start bit, or outputs the next bit. -/
theorem Tx.advance_cases (c : Config) (t : Tx) :
    (t.shift = 0 ∧ t.queue = [] ∧ t.advance c = { t with busy := false }) ∨
    (∃ b bs, t.shift = 0 ∧ t.queue = b :: bs ∧
      t.advance c = Tx.output c { t with queue := bs, shift := frame b }) ∨
    (t.shift ≠ 0 ∧ t.advance c = t.output c) := by
  unfold Tx.advance Tx.pop
  by_cases h : t.shift = 0
  · simp only [if_pos h]
    cases hq : t.queue with
    | nil => exact .inl ⟨h, rfl, by simp [Tx.clearBusy, hq]⟩
    | cons b bs => exact .inr (.inl ⟨b, bs, h, rfl, rfl⟩)
  · simp only [if_neg h]
    exact .inr (.inr ⟨h, trivial⟩)

/-- TxTick leaves the pin's direction alone. -/
@[simp] theorem txTick_oe (c : Config) (t : Tx) : (txTick c t).oe = t.oe := by
  rw [txTick_eq]
  split
  · rfl
  · obtain ⟨_, _, h⟩ | ⟨_, _, _, _, h⟩ | ⟨_, h⟩ := Tx.advance_cases c { t with sub := 0 } <;> rw [h] <;> rfl

@[simp] theorem txTick_pu (c : Config) (t : Tx) : (txTick c t).pu = t.pu := by
  rw [txTick_eq]
  split
  · rfl
  · obtain ⟨_, _, h⟩ | ⟨_, _, _, _, h⟩ | ⟨_, h⟩ := Tx.advance_cases c { t with sub := 0 } <;> rw [h] <;> rfl

/-- RxTick while the stop window is waited out: a count, or a push with the return to `Idle`. -/
theorem rxTickAwaitingStop_cases {c : Config} {r r' : Rx} (h : rxTickAwaitingStop c r = .ok r') :
    (r.sub - 1 ≠ 0 ∧ r' = { r with sub := r.sub - 1 }) ∨
    (r.sub - 1 = 0 ∧ r.full c = true ∧ r' = { r with sub := 0, busy := false, state := .idle }) ∨
    (r.sub - 1 = 0 ∧ r.full c = false ∧ r.inIdx.toNat < c.nRx ∧
      r' = { r with sub := 0, busy := false, state := .idle
                    buf := r.buf.set r.inIdx.toNat r.acc, inIdx := nextSlot c r.inIdx }) := by
  unfold rxTickAwaitingStop at h
  split at h
  · rename_i h1
    cases hp : Rx.push c { r with sub := 0 } r.acc with
    | error e => rw [hp] at h; cases h
    | ok q =>
      rw [hp] at h
      injection h with h
      subst h
      obtain ⟨hf, rfl⟩ | ⟨hf, hi, rfl⟩ := Rx.push_cases hp
      · exact .inr (.inl ⟨h1, hf, rfl⟩)
      · exact .inr (.inr ⟨h1, hf, hi, rfl⟩)
  · injection h with h
    exact .inl ⟨‹_›, h.symm⟩

@[simp] theorem Rx.endOfBits_disabled (r : Rx) : r.endOfBits.disabled = r.disabled := by
  unfold Rx.endOfBits; split <;> rfl

@[simp] theorem Rx.endOfBits_outIdx (r : Rx) : r.endOfBits.outIdx = r.outIdx := by
  unfold Rx.endOfBits; split <;> rfl

/-- RxTick never writes `rx_disabled` or `rx_out`. -/
theorem rxTick_frame {c : Config} {level : Level} {r r' : Rx} (h : rxTick c level r = .ok r') :
    r'.disabled = r.disabled ∧ r'.outIdx = r.outIdx := by
  unfold rxTick at h
  split at h
  · injection h with h
    subst h
    unfold rxTickIdle Rx.setBusy
    split <;> exact ⟨rfl, rfl⟩
  · injection h with h
    subst h
    unfold rxTickInCharacter
    split
    · exact ⟨Rx.endOfBits_disabled _, Rx.endOfBits_outIdx _⟩
    · exact ⟨rfl, rfl⟩
  · obtain ⟨_, rfl⟩ | ⟨_, _, rfl⟩ | ⟨_, _, _, rfl⟩ := rxTickAwaitingStop_cases h <;> exact ⟨rfl, rfl⟩

/-- A TICK that answers a next state: its transmit part, its receive part, its hook. -/
theorem takeTick_next {s t : State} :
    takeTick s = .next t ↔
      ∃ r, (s.withTx (txTick s.cfg s.tx)).receivePart = .ok r ∧
        t = ((s.withTx (txTick s.cfg s.tx)).withRx r).invokeTickHook := by
  unfold takeTick
  cases h : (s.withTx (txTick s.cfg s.tx)).receivePart with
  | ok r => simp [h, eq_comm (b := t)]
  | error e => simp [h]

/-- The receive part of a TICK: nothing, or RxTick with the sampled level. -/
theorem receivePart_cases {s : State} {r : Rx} (h : s.receivePart = .ok r) :
    ((s.cfg.txOnly = true ∨ s.rx.disabled = true) ∧ r = s.rx) ∨
    (s.cfg.txOnly = false ∧ s.rx.disabled = false ∧ rxTick s.cfg s.sampleRx s.rx = .ok r) := by
  unfold State.receivePart at h
  split at h
  · injection h with h
    exact .inl ⟨by simpa using ‹(s.cfg.txOnly || s.rx.disabled) = true›, h.symm⟩
  · exact .inr ⟨by simp_all, by simp_all, h⟩

end Sys2Proof.Machine
end

