-- ==== Sys2Proof/Laws/Step.lean ====
section
/-! SUPPORT. What a step can do, said once: the inversion of a step, of a clock edge, of a foreground step, and the
outcomes of each command. -/

namespace Sys2Proof.Machine

/-- `step` of an instance that exists. -/
theorem step_of_legal {s : State} (h : s.cfg.check = none) : step s = countStep (react s.stimulus s.opened) := by
  simp [step, h, stepLegal]

theorem countStep_next {o : Host.Outcome State Fault Refusal} {t : State} (h : countStep o = .next t) :
    ∃ u, o = .next u ∧ t = u.counted := by
  cases o with
  | next u => injection h with h; exact ⟨u, rfl, h.symm⟩
  | fault e => cases h
  | refused r => cases h

/-- A step that answers a next state: the instance exists, and the stimulus answered the state that is then counted. -/
theorem step_next {s t : State} (h : step s = .next t) :
    s.cfg.check = none ∧ ∃ u, react s.stimulus s.opened = .next u ∧ t = u.counted := by
  unfold step at h
  split at h
  · cases h
  · exact ⟨‹_›, countStep_next h⟩

/-- A clock edge that answers a next state: the counter holds, counts, or the TICK is taken. -/
theorem clockEdge_next {s t : State} (h : clockEdge s = .next t) :
    (s.timerRun = false ∧ t = s) ∨
    (s.timerRun = true ∧ s.divCnt ≠ s.cfg.top ∧ t = { s with divCnt := s.divCnt + 1 }) ∨
    (s.timerRun = true ∧ s.divCnt = s.cfg.top ∧ s.tickRun = false ∧ takeTick { s with divCnt := 0 } = .next t) := by
  unfold clockEdge at h
  split at h
  · split at h
    · split at h
      · cases h
      · exact .inr (.inr ⟨‹_›, ‹_›, by simp_all, h⟩)
    · injection h with h
      exact .inr (.inl ⟨‹_›, ‹_›, h.symm⟩)
  · injection h with h
    exact .inl ⟨by simp_all, h.symm⟩

/-- A foreground step: none while a hook body runs or nothing is offered, else exec of the command in progress or of the
one accepted. -/
theorem foregroundStep_cases (s : State) :
    (s.hookRuns = true ∧ foregroundStep s = .next s) ∨
    (s.hookRuns = false ∧ s.fg = .ready ∧ s.env.port = [] ∧ foregroundStep s = .next s) ∨
    (∃ w ws, s.hookRuns = false ∧ s.fg = .ready ∧ s.env.port = w :: ws ∧
      foregroundStep s = exec (decode w) (s.withPort ws)) ∨
    (∃ c p, s.hookRuns = false ∧ s.fg = .spin c p ∧ foregroundStep s = exec c s) := by
  unfold foregroundStep
  cases hh : s.hookRuns with
  | true => simp
  | false =>
    cases hf : s.fg with
    | spin c p => simp
    | ready =>
      cases hp : s.env.port with
      | nil => simp
      | cons w ws => simp

/-- What exec can answer: completion, a failed evaluation, END's change of phase, or a ring fault of READ and PEEK. -/
theorem exec_cases (i : Instr) (s : State) :
    (∃ (v : RspWord) (u : State), exec i s = .next (u.done v)) ∨
    (∃ p, (p = .zero ∨ i = .endCmd) ∧ i.blocking = true ∧ exec i s = .next (s.spun i p)) ∨
    (i = .endCmd ∧ s.phase = .zero ∧ s.cfg.txOnly = false ∧ s.rx.busy = false ∧
      exec i s = .next ((s.withRx s.rx.disable).goPhase .endCmd .one)) ∨
    (∃ e, (i = .read ∨ i = .peek) ∧ exec i s = .fault e) := by
  cases i with
  | beginCmd => exact .inl ⟨_, _, rfl⟩
  | isBusy => exact .inl ⟨_, _, rfl⟩
  | senseEnd => exact .inl ⟨_, _, rfl⟩
  | readPin => exact .inl ⟨_, _, rfl⟩
  | setTickHook h => exact .inl ⟨_, _, rfl⟩
  | setIdleHook h => exact .inl ⟨_, _, rfl⟩
  | reservedF => exact .inl ⟨_, _, rfl⟩
  | enqueue d =>
    simp only [exec, execEnqueue, State.spin_eq_spun]
    split
    · exact .inr (.inl ⟨.zero, .inl rfl, rfl, rfl⟩)
    · exact .inl ⟨_, _, rfl⟩
  | flush =>
    simp only [exec, execFlush, State.whenTxIdle, State.spin_eq_spun]
    split
    · exact .inr (.inl ⟨.zero, .inl rfl, rfl, rfl⟩)
    · exact .inl ⟨_, _, rfl⟩
  | senseBegin =>
    simp only [exec, execSenseBegin, State.whenTxIdle, State.spin_eq_spun]
    split
    · exact .inr (.inl ⟨.zero, .inl rfl, rfl, rfl⟩)
    · exact .inl ⟨_, _, rfl⟩
  | rxDisable =>
    simp only [exec, execRxDisable, State.whenRxIdle, State.spin_eq_spun]
    split
    · exact .inl ⟨_, _, rfl⟩
    · split
      · exact .inr (.inl ⟨.zero, .inl rfl, rfl, rfl⟩)
      · exact .inl ⟨_, _, rfl⟩
  | endCmd =>
    simp only [exec, execEnd, State.whenRxIdle, State.whenTxIdle, State.spin_eq_spun]
    split
    · rename_i h
      split
      · exact .inr (.inl ⟨.zero, by simp, rfl, rfl⟩)
      · rename_i hb
        exact .inr (.inr (.inl ⟨by simp, h.1, h.2, by simpa using hb, rfl⟩))
    · split
      · exact .inr (.inl ⟨.one, by simp, rfl, rfl⟩)
      · exact .inl ⟨_, _, rfl⟩
  | available =>
    simp only [exec, execAvailable]
    split <;> exact .inl ⟨_, _, rfl⟩
  | rxEnable =>
    simp only [exec, execRxEnable]
    split <;> exact .inl ⟨_, _, rfl⟩
  | read =>
    simp only [exec, execRead]
    split
    · exact .inl ⟨_, _, rfl⟩
    · split
      · exact .inl ⟨_, _, rfl⟩
      · exact .inr (.inr (.inr ⟨_, by simp, rfl⟩))
  | peek =>
    simp only [exec, execPeek]
    split
    · exact .inl ⟨_, _, rfl⟩
    · split
      · exact .inl ⟨_, _, rfl⟩
      · exact .inr (.inr (.inr ⟨_, by simp, rfl⟩))

/-- No command is refused. -/
theorem exec_not_refused (i : Instr) (s : State) (r : Refusal) : exec i s ≠ .refused r := by
  obtain ⟨_, _, h⟩ | ⟨_, _, _, h⟩ | ⟨_, _, _, _, h⟩ | ⟨_, _, h⟩ := exec_cases i s <;> rw [h] <;> simp

end Sys2Proof.Machine
end

