-- ==== Sys2Proof/Tests/Slice0.lean ====
section
/-! SUPPORT. The model's own tests: the checks refuse ill-formed configurations and words, words written bit by bit
decode, single steps give what the spec's rules and vectors give, and each statement's hypotheses are met by a concrete
state. Expected values come from spec/; the source is named at each group. -/

namespace Sys2Proof.Tests

open Sys2Proof Sys2Proof.Machine

/-! Helpers. -/

/-- A part of the next state, if there is one. -/
def after {α : Type} (f : State → α) (o : Host.Outcome State Fault Refusal) : Option α :=
  match o with
  | .next s => some (f s)
  | .fault _ => none
  | .refused _ => none

/-- Why a step is refused, if it is. -/
def refusal (o : Host.Outcome State Fault Refusal) : Option Refusal :=
  match o with
  | .refused r => some r
  | .fault _ => none
  | .next _ => none

/-- The start state of 95_test_vectors.md section 1: reset, then BEGIN. -/
def started : State := { State.reset with tx := { Tx.reset with oe := true }, timerRun := true }

/-- A state with the stimulus `x` next. -/
def facing (x : Stimulus) (s : State) : State := { s with env := { s.env with script := [x] } }

/-- The start state with another transmit side. -/
def sending (t : Tx) : State := { started with tx := t }

/-- A transmitter that holds its first bit of 0x41, with `q` queued (V14 (a)). -/
def txHeld (q : List Byte) : Tx :=
  { queue := q, shift := 0x141, sub := 3, busy := true, out := false, oe := true, pu := false }

/-- A transmitter with `q` queued and nothing sent. -/
def txQueued (q : List Byte) : Tx :=
  { queue := q, shift := 0, sub := 0, busy := true, out := true, oe := true, pu := false }

/-- A receive side with the ring `m` between the indices `i` and `o`. -/
def ring (m : Memory) (i o : BitVec 8) : Rx := { Rx.reset with buf := m, inIdx := i, outIdx := o }

/-- The start state with another receive side. -/
def receiving (r : Rx) : State := { started with rx := r }

/-- A receive side inside a character: `n` bits to sample, `k` ticks before the next sample. -/
def rxIn (n : BitVec 4) (k : BitVec 8) : Rx :=
  { Rx.reset with state := .inCharacter, bits := n, mask := 0x80, acc := 0x25, sub := k, busy := true }

/-- A receive side in the stop window with the ring `m` between `i` and `o`. -/
def rxStop (k : BitVec 8) (m : Memory) (i o : BitVec 8) : Rx :=
  { Rx.reset with state := .awaitingStopBit, acc := 0xA5, sub := k, busy := true, buf := m, inIdx := i, outIdx := o }

/-- The transmit-only variant of the sample instance, started. -/
def txOnlyStarted : State := { started with cfg := { Config.sample with txOnly := true } }

/-- The start state with the idle hook 0x07. -/
def hooked : State := { started with idleHook := 0x07 }

/-- The step that runs the word `w` first in `s`. -/
def run (s : State) (w : Nat) : Host.Outcome State Fault Refusal := step (s.withFetchWord 12 w)

/-! Well-formedness: every check refuses an ill-formed term, and the edges are accepted (V13, R201). -/

theorem test_refuses_oversample_too_small :
    Config.check { Config.sample with f := 2 } = some .oversampleTooSmall := by decide
theorem test_refuses_oversample_too_large :
    Config.check { Config.sample with f := 171, fClk := 16000000 } = some .oversampleTooLarge := by decide
theorem test_refuses_ring_too_large : Config.check { Config.sample with nRx := 129 } = some .rxCapacityTooLarge := by
  decide
theorem test_refuses_ring_too_small : Config.check { Config.sample with nRx := 1 } = some .rxCapacityTooSmall := by
  decide
theorem test_refuses_queue_of_zero : Config.check { Config.sample with nTx := 0 } = some .txCapacityZero := by decide
theorem test_refuses_top_out_of_range :
    Config.check { Config.sample with fClk := 8000000 } = some .timerTopOutOfRange := by decide
theorem test_refuses_divisor_zero : Config.check { Config.sample with fClk := 14399 } = some .timerDivisorZero := by
  decide
theorem test_refuses_baud_zero : Config.wellFormed { Config.sample with baud := 0 } = false := by decide
theorem test_accepts_edges :
    Config.wellFormed Config.sample = true ∧ Config.wellFormed { Config.sample with f := 170 } = true ∧
    Config.wellFormed { Config.sample with nRx := 128 } = true ∧
    Config.wellFormed { Config.sample with nRx := 2 } = true ∧
    Config.wellFormed { Config.sample with nTx := 1 } = true ∧
    Config.wellFormed { Config.sample with nRx := 500, txOnly := true } = true ∧
    Config.wellFormed { Config.sample with fClk := 14400 } = true := by decide
/-- R201: an instance with an illegal configuration runs nothing. -/
theorem test_illegal_configuration_is_refused :
    refusal (step { started with cfg := { Config.sample with f := 2 } }) =
      some (.illegalConfig .oversampleTooSmall) := by decide
theorem test_refuses_word_with_operand_bits : canonicalWord 0x3A7#12 = false ∧ canonicalWord 0x300#12 = true := by
  decide
theorem test_refuses_thirteen_bits :
    decodeTableWord 13 0x1000 = none ∧ decodeTableWord 12 0xE07 = some (.setIdleHook 0x07) := by decide

/-! The divider (V12, R101, R102). -/

theorem test_divisors :
    Config.divisor { Config.sample with fClk := 8000000 } = 278 ∧ Config.sample.divisor = 35 ∧
    Config.divisor { Config.sample with fClk := 1000000, f := 4 } = 26 ∧
    Config.divisor { Config.sample with fClk := 43200 } = 2 ∧ Config.divisor { Config.sample with fClk := 14400 } = 1 ∧
    Config.divisor { Config.sample with fClk := 14399 } = 0 := by decide

/-! Decoding: each word written bit by bit, `op` then `d`, from R84 and R86 (V22). -/

theorem test_decode_begin : decode 0b000000000000#12 = .beginCmd := by decide
theorem test_decode_end : decode 0b000100000000#12 = .endCmd := by decide
theorem test_decode_enqueue : decode 0b001001000001#12 = .enqueue 0x41 := by decide
theorem test_decode_flush : decode 0b001100000000#12 = .flush := by decide
theorem test_decode_is_busy : decode 0b010000000000#12 = .isBusy := by decide
theorem test_decode_available : decode 0b010100000000#12 = .available := by decide
theorem test_decode_read : decode 0b011000000000#12 = .read := by decide
theorem test_decode_peek : decode 0b011100000000#12 = .peek := by decide
theorem test_decode_rx_enable : decode 0b100000000000#12 = .rxEnable := by decide
theorem test_decode_rx_disable : decode 0b100100000000#12 = .rxDisable := by decide
theorem test_decode_sense_begin : decode 0b101000000000#12 = .senseBegin := by decide
theorem test_decode_sense_end : decode 0b101100000000#12 = .senseEnd := by decide
theorem test_decode_read_pin : decode 0b110000000000#12 = .readPin := by decide
theorem test_decode_set_tick_hook : decode 0b110100000001#12 = .setTickHook 0x01 := by decide
theorem test_decode_set_idle_hook : decode 0b111000000111#12 = .setIdleHook 0x07 := by decide
theorem test_decode_reserved : decode 0b111100010010#12 = .reservedF := by decide
theorem test_encode_words :
    encode (.enqueue 0x41) = 0x241#12 ∧ encode .readPin = 0xC00#12 ∧ encode (.setTickHook 0x01) = 0xD01#12 := by decide

/-! Frames (V11). -/

theorem test_frames :
    frame 0xAA = 0x354 ∧ frame 0x80 = 0x300 ∧ frame 0x01 = 0x202 ∧ frame 0x41 = 0x282 := by decide

/-! Reset (R231). -/

theorem test_reset : ResetValues State.reset := by
  constructor <;> decide

/-! One step per command, each through fetch and decode. -/

/-- R190: pin (1, 0) at level 1, timer armed, divider zeroed. -/
theorem test_begin :
    after (fun t => (t.tx, t.timerRun, t.divCnt, t.rspO))
      (run { State.reset with divCnt := 5, tx := { Tx.reset with out := false, pu := true } } 0x000) =
      some ({ Tx.reset with oe := true }, true, 0, some 0x000) := by decide
/-- R191, phase 0: receive disabled, then phase 1 with no response and no hook event. -/
theorem test_end_phase_zero :
    after (fun t => (t.rx.disabled, t.rx.inIdx, t.fg, t.out)) (run { hooked with rx := ring [] 3 3 } 0x100) =
      some (true, 0, .spin .endCmd .one, none) := by decide
/-- R191, phase 1: it waits for the transmitter as FLUSH does. -/
theorem test_end_phase_one :
    after (fun t => (t.fg, t.out))
      (exec .endCmd { hooked with tx := txQueued [0x41], fg := .spin .endCmd .one }) =
      some (.spin .endCmd .one, some (.idleHook 0x07)) := by decide
/-- R120, V1: the byte is appended at the back. -/
theorem test_enqueue :
    after (fun t => (t.tx.queue, t.tx.busy, t.rspO)) (run (sending (txQueued [0x41, 0x42])) 0x243) =
      some ([0x41, 0x42, 0x43], true, some 0x000) := by decide
/-- R120, V1: the fifth byte of a queue of four spins, with IdleHook(0x07). -/
theorem test_enqueue_full :
    after (fun t => (t.tx.queue, t.fg, t.out, t.cmdReadyO))
      (run { hooked with tx := txQueued [0x41, 0x42, 0x43, 0x44] } 0x245) =
      some ([0x41, 0x42, 0x43, 0x44], .spin (.enqueue 0x45) .zero, some (.idleHook 0x07), false) := by decide
/-- R121, V5: a busy transmitter spins; the no-op idle hook makes no event. -/
theorem test_flush_busy :
    after (fun t => (t.fg, t.out, t.idleRun)) (run (sending (txQueued [0x00])) 0x300) =
      some (.spin .flush .zero, none, false) := by decide
/-- R121, V5: an idle transmitter completes at once; the operand bits are ignored (R88). -/
theorem test_flush_idle : after State.rspO (run started 0x3A7) = some (some 0x000) := by decide
/-- R122, V2. -/
theorem test_is_busy :
    after State.rspO (run (sending (txQueued [0x55])) 0x400) = some (some 0x001) ∧
    after State.rspO (run started 0x400) = some (some 0x000) := by decide
/-- R146: 1 - 6 modulo 8. -/
theorem test_available_wraps : after State.rspO (run (receiving (ring [] 1 6)) 0x500) = some (some 0x003) := by decide
/-- R146: 0 - 127 modulo 128. -/
theorem test_available_wraps_at_128 :
    after State.rspO (run { receiving (ring [] 0 127) with cfg := { Config.sample with nRx := 128 } } 0x500) =
      some (some 0x001) := by decide
/-- R147, R77: the oldest byte, and the index wraps from N_RX - 1 to 0. -/
theorem test_read :
    after (fun t => (t.rspO, t.rx.outIdx, t.rx.inIdx)) (run (receiving (ring [(0, 0x42), (7, 0xFF)] 1 7)) 0x600) =
      some (some 0x0FF, 0, 1) := by decide
/-- R147, R85: "none" is 0x100. -/
theorem test_read_empty :
    after (fun t => (t.rspO, t.rx.outIdx)) (run (receiving (ring [(0, 0x42)] 1 1)) 0x600) = some (some 0x100, 1) := by
  decide
/-- R148: the byte stays. -/
theorem test_peek :
    after (fun t => (t.rspO, t.rx.outIdx)) (run (receiving (ring [(0, 0x41), (1, 0x42)] 2 1)) 0x700) =
      some (some 0x042, 1) := by decide
/-- R149. -/
theorem test_rx_enable :
    after (fun t => (t.rx.disabled, t.rspO)) (run (receiving { Rx.reset with disabled := true }) 0x800) =
      some (false, some 0x000) := by decide
/-- R150, V8: a character in progress spins. -/
theorem test_rx_disable_busy :
    after (fun t => (t.rx.disabled, t.fg, t.out)) (run { hooked with rx := rxIn 8 3 } 0x900) =
      some (false, .spin .rxDisable .zero, some (.idleHook 0x07)) := by decide
/-- R150, V8: both indices are zeroed, the slot keeps its byte. -/
theorem test_rx_disable :
    after (fun t => (t.rx, t.rspO))
      (run (receiving (ring [(0, 0xA5)] 1 0)) 0x900) = some ({ ring [(0, 0xA5)] 0 0 with disabled := true }, some 0x000) := by decide
/-- R180, V10. -/
theorem test_sense_begin :
    after (fun t => (t.tx.oe, t.tx.pu, t.tx.out, t.rspO)) (run started 0xA00) =
      some (false, true, true, some 0x000) := by decide
/-- R180: a pending byte is flushed first. -/
theorem test_sense_begin_busy :
    after (fun t => (t.fg, t.tx.oe)) (run (sending (txQueued [0x41])) 0xA00) = some (.spin .senseBegin .zero, true) := by
  decide
/-- R181, V10; a frame in progress does not hold it up (D22). -/
theorem test_sense_end :
    after (fun t => (t.tx.oe, t.tx.pu, t.tx.out, t.tx.shift, t.rspO))
      (run (sending { txHeld [] with oe := false, pu := true }) 0xB00) =
      some (true, false, true, 0x141, some 0x000) := by decide
/-- R182, R183, V10: an external device pulls the sensed line low while the latch stays 1. -/
theorem test_read_pin_low :
    after (fun t => (t.rspO, t.tx.out))
      (run { sending { started.tx with oe := false, pu := true } with env := { Env.reset with extLow := true } } 0xC00) =
      some (some 0x000, true) := by decide
/-- R182, R183, V10. -/
theorem test_read_pin_high : after State.rspO (run started 0xC00) = some (some 0x001) := by decide
/-- R170. -/
theorem test_set_tick_hook :
    after (fun t => (t.tickHook, t.idleHook, t.rspO)) (run started 0xD01) = some (0x01, 0x00, some 0x000) := by decide
/-- R171. -/
theorem test_set_idle_hook :
    after (fun t => (t.tickHook, t.idleHook, t.rspO)) (run started 0xE07) = some (0x00, 0x07, some 0x000) := by decide
/-- R87, log 10. -/
theorem test_reserved :
    after (fun t => (t.rspO, t.fg, t.tx, t.rx)) (run started 0xF12) =
      some (some 0x000, .ready, started.tx, started.rx) := by decide
/-- R151, V7: the stubs of the transmit-only variant. -/
theorem test_stubs :
    after State.rspO (run txOnlyStarted 0x500) = some (some 0x000) ∧
    after State.rspO (run txOnlyStarted 0x600) = some (some 0x100) ∧
    after State.rspO (run txOnlyStarted 0x700) = some (some 0x100) ∧
    after State.rspO (run txOnlyStarted 0x800) = some (some 0x000) ∧
    after State.rspO (run txOnlyStarted 0x900) = some (some 0x000) := by decide

/-! The TICK. -/

/-- R123, V6 tick 1: reload, start bit, and the looped-back receiver starts in the same tick. -/
theorem test_tick_loads_and_loops_back :
    after (fun t => (t.tx, t.rx))
      (takeTick { sending (txQueued [0x41, 0x42]) with env := { Env.reset with line := .loopback } }) =
      some (txHeld [0x42], { Rx.reset with state := .inCharacter, sub := 4, bits := 8, mask := 0x01, busy := true }) := by
  decide
/-- R123, V3 tick 4: the held bit runs out and the next one goes out. -/
theorem test_tx_tick_next_bit :
    txTick Config.sample { txHeld [] with shift := 0x155, sub := 1 } =
      { txHeld [] with shift := 0x0AA, sub := 3, out := true } := by decide
/-- R123, V3 tick 31: `tx_busy` is cleared, the pin stays. -/
theorem test_tx_tick_idle :
    txTick Config.sample { txHeld [] with shift := 0, sub := 1, out := true } =
      { txHeld [] with shift := 0, sub := 0, out := true, busy := false } := by decide
/-- R142, V6 tick 26: the last data bit, low; the state machine waits out the stop window. -/
theorem test_rx_tick_last_bit :
    after (fun t => (t.rx.state, t.rx.sub, t.rx.bits, t.rx.mask, t.rx.acc))
      (takeTick { receiving { rxIn 1 1 with acc := 0x41 } with env := { Env.reset with line := .level false } }) =
      some (.awaitingStopBit, 3, 0, 0x00, 0x41) := by decide
/-- R143, V6 tick 29 and R144: the push, with the line low. -/
theorem test_rx_tick_push :
    after (fun t => (t.rx.state, t.rx.busy, t.rx.inIdx, t.rx.buf))
      (takeTick { receiving (rxStop 1 [] 0 0) with env := { Env.reset with line := .level false } }) =
      some (.idle, false, 1, [(0, 0xA5)]) := by decide
/-- R76, R77: a full ring (7 of 8 slots) drops the incoming byte. -/
theorem test_rx_tick_overrun :
    after (fun t => (t.rx.state, t.rx.inIdx, t.rx.buf))
      (takeTick { receiving (rxStop 1 [(0, 0x11)] 7 0) with env := { Env.reset with line := .level true } }) =
      some (.idle, 7, [(0, 0x11)]) := by decide
/-- R173, V9: the tick hook at the end of the tick. -/
theorem test_tick_hook :
    after (fun t => (t.tickHookO, t.tickRun)) (takeTick { txOnlyStarted with tickHook := 0x01 }) =
      some (some 0x01, true) := by decide
/-- R103: the clock edge at TOP zeroes the counter and takes the TICK; the edge before counts. -/
theorem test_clock :
    after State.divCnt (step (facing .clock { started with divCnt := 33 })) = some 34 ∧
    after (fun t => (t.divCnt, t.tx.sub)) (step (facing .clock { sending (txHeld []) with divCnt := 34 })) =
      some (0, 2) := by decide
/-- R230, R231: reset abandons a spinning command. -/
theorem test_reset_abandons :
    after (fun t => (t.fg, t.out, t.tx, t.timerRun))
      (step (facing .reset { sending (txHeld [0x01]) with fg := .spin .flush .zero })) =
      some (.ready, none, Tx.reset, false) := by decide
/-- R90: the text of a command. -/
theorem test_text :
    Instr.text (.enqueue 0x4F) = "ENQUEUE 0x4F" ∧ parseCommand "ENQUEUE 'A'   ; comment" = some (.enqueue 0x41) ∧
    parseCommand "SET_TICK_HOOK 255" = some (.setTickHook 0xFF) ∧ parseCommand "FLUSH 0x01" = none := by decide

/-! Witnesses: for each statement with hypotheses, concrete states and operands that meet them, for each of its
clauses. -/

/-- A state is met by a step that answers a next state. -/
def steppable (s : State) : Bool := (after State.cfg (step s)).isSome

/-- A command answers a next state. -/
def executable (i : Instr) (s : State) : Bool := (after State.cfg (exec i s)).isSome

theorem next_of_steppable {s : State} (h : steppable s = true) : ∃ t, step s = .next t := by
  unfold steppable at h
  cases hs : step s with
  | next t => exact ⟨t, rfl⟩
  | fault e => rw [hs] at h; cases h
  | refused r => rw [hs] at h; cases h

theorem next_of_executable {i : Instr} {s : State} (h : executable i s = true) : ∃ t, exec i s = .next t := by
  unfold executable at h
  cases hs : exec i s with
  | next t => exact ⟨t, rfl⟩
  | fault e => rw [hs] at h; cases h
  | refused r => rw [hs] at h; cases h

/-- A receive side with an empty ring, enabled or not, is one of the invariant's. -/
theorem rxOk_empty (d : Bool) : RxOk Config.sample { Rx.reset with disabled := d } := by
  cases d <;> constructor <;> decide

/-- A receive side with one unread byte. -/
theorem rxOk_one : RxOk Config.sample (ring [(0, 0x41)] 1 0) := by constructor <;> decide

/-- A full ring that wraps: unread slots 7, 0, 1, 2, 3, 4, 5. -/
theorem rxOk_full :
    RxOk Config.sample (ring [(0, 1), (1, 2), (2, 3), (3, 4), (4, 5), (5, 6), (7, 0)] 6 7) := by
  constructor <;> decide

/-- A started state with `q` queued and nothing sent. -/
def loaded (q : List Byte) (d : Bool) (e : Env) : State :=
  { started with tx := { txQueued q with busy := !q.isEmpty }, rx := { Rx.reset with disabled := d }, env := e }

theorem inv_loaded (q : List Byte) (hq : q.length ≤ 4) (d : Bool) (e : Env) : Inv (loaded q d e) where
  legal := by show Config.sample.check = none; decide
  tx :=
    { room := hq
      sub_le := by show (0 : Nat) ≤ 3; decide
      busy_iff := by cases q <;> simp [loaded, txQueued]
      pin := by simp [loaded, txQueued]
      idle_high := fun _ => rfl }
  rx := fun _ => rxOk_empty d
  rx_absent := fun h => by cases h
  div_le := by show (0 : Nat) ≤ _; omega
  stopped := fun h => by cases h
  pin_set := by simp [loaded, txQueued]
  spinning := fun _ _ h => by cases h
  idle_body := fun h => by cases h
  tick_body := fun h => by cases h

theorem witness_DecodeEncodeRoundTrip : Instr.wellFormed (.enqueue 0xFF) = true := by decide

theorem witness_UnusedOperandBitsAreIgnored :
    opcodeField 0x3A7#12 = opcodeField 0x300#12 ∧ opcodeField 0x3A7#12 ≠ 0x2#4 ∧ opcodeField 0x3A7#12 ≠ 0xD#4 ∧
    opcodeField 0x3A7#12 ≠ 0xE#4 ∧ opcodeField 0xFFF#12 = opcodeField 0xF00#12 ∧ opcodeField 0xFFF#12 ≠ 0xE#4 := by
  decide

theorem witness_FrameHoldsStartDataStop : (7 < 8) ∧ (frame 0x80).getLsbD (7 + 1) = true := by decide

/-- The tie of V12: 43200 / 28800 = 1.5. -/
theorem witness_DivisorIsNearestTiesUpward :
    0 < Config.rTick { Config.sample with fClk := 43200 } ∧
    ((43200 : Int) - (Config.divisor { Config.sample with fClk := 43200 } : Int) * 28800).natAbs =
      ((43200 : Int) - 1 * 28800).natAbs := by decide

theorem witness_BuildTimeErrorsRejectInstances :
    Config.sample.errors = [] ∧ Config.errors { Config.sample with f := 2 } ≠ [] := by decide

theorem witness_IllegalConfigurationNeverRuns :
    State.cfg { started with cfg := { Config.sample with nTx := 0 } } = { Config.sample with nTx := 0 } ∧
    Config.errors { Config.sample with nTx := 0 } ≠ [] := by decide

theorem witness_LegalParametersFitTheirRegisters :
    Config.check { Config.sample with f := 170, nRx := 128 } = none ∧ Config.check { Config.sample with nRx := 2 } = none ∧
    Config.txOnly { Config.sample with f := 170, nRx := 128 } = false := by decide

theorem witness_ResetGivesResetValues :
    (facing .reset (sending (txHeld [1]))).cfg.check = none ∧
    (facing .reset (sending (txHeld [1]))).stimulus = .reset := by decide

theorem witness_ForegroundStepRunsTheCommand :
    (started.cfg.check = none ∧ started.tickRun = false ∧ started.idleRun = false ∧ started.fg = .ready) ∧
    (started.withFetchWord 12 0x241).env.script = .foreground :: [] ∧
    (started.withFetchWord 12 0x241).env.port = 0x241#12 :: [] ∧
    (facing .foreground { started with fg := .spin .flush .zero }).fg = .spin .flush .zero ∧
    (facing .foreground { started with fg := .spin .flush .zero }).env.script = .foreground :: [] := by decide

theorem witness_WithFetchWordRunsTheDecodedCommand :
    started.cfg.check = none ∧ 12 ≤ 12 ∧ 0xFFF < 4096 ∧ 12 ≤ 16 ∧ 0 < 4096 := by decide

theorem witness_EvaluationRespondsSpinsOrChangesPhase :
    (∃ t, exec .isBusy started = .next t) ∧ Instr.blocking .isBusy = false ∧
    (∃ t, exec .flush (sending (txHeld [])) = .next t) ∧ (∃ t, exec .endCmd started = .next t) :=
  ⟨next_of_executable (by decide), rfl, next_of_executable (by decide), next_of_executable (by decide)⟩

theorem witness_PortHoldsCommandsOffWhileSpinning :
    ((facing .foreground { sending (txHeld []) with fg := .spin .flush .zero }).cfg.check = none ∧
      (facing .foreground { sending (txHeld []) with fg := .spin .flush .zero }).stimulus = .foreground ∧
      ∃ t, step (facing .foreground { sending (txHeld []) with fg := .spin .flush .zero }) = .next t) ∧
    ((facing (.offer 0x400) { sending (txHeld []) with fg := .spin .flush .zero }).stimulus = .offer 0x400 ∧
      (facing (.offer 0x400) { sending (txHeld []) with fg := .spin .flush .zero }).fg ≠ .ready) ∧
    ((facing (.offer 0x400) started).stimulus = .offer 0x400 ∧ started.fg = .ready ∧ started.tickRun = false ∧
      started.idleRun = false) ∧
    (facing (.setLine .loopback) started).stimulus = .setLine .loopback ∧
    (facing (.setExtLow true) started).stimulus = .setExtLow true :=
  ⟨⟨by decide, rfl, next_of_steppable (by decide)⟩, ⟨rfl, by decide⟩, ⟨rfl, rfl, rfl, rfl⟩, rfl, rfl⟩

/-- An idle-hook body runs while FLUSH spins, and a TICK is due. -/
def bodyRuns (x : Stimulus) : State :=
  facing x { sending (txHeld []) with divCnt := 34, idleHook := 0x07, idleRun := true, fg := .spin .flush .zero }

/-- A tick-hook body runs with no command in progress. -/
def tickBodyRuns (x : Stimulus) : State := facing x { started with divCnt := 34, tickHook := 0x01, tickRun := true }

theorem witness_RunningHookHoldsOnlyTheForeground :
    ((bodyRuns .foreground).cfg.check = none ∧ (bodyRuns .foreground).idleRun = true ∧
      (bodyRuns .foreground).env.script = .foreground :: []) ∧
    ((bodyRuns .clock).tickRun = false ∧ (bodyRuns .clock).timerRun = true ∧
      (bodyRuns .clock).divCnt = (bodyRuns .clock).cfg.top ∧ (bodyRuns .clock).env.script = .clock :: []) ∧
    ((bodyRuns .hookDone).env.script = .hookDone :: [] ∧ (tickBodyRuns .hookDone).tickRun = true ∧
      (tickBodyRuns .hookDone).env.script = .hookDone :: []) ∧
    ((tickBodyRuns (.offer 0x400)).fg = .ready ∧ (tickBodyRuns (.offer 0x400)).tickRun = true ∧
      (tickBodyRuns (.offer 0x400)).env.script = .offer 0x400 :: []) := by decide

/-- A state that faces `n` clock edges. -/
def clocks (n k : Nat) (r : Bool) : State :=
  { started with timerRun := r, divCnt := k, env := { Env.reset with script := List.replicate n .clock } }

theorem witness_TickEveryDivisorClockEdges :
    ((clocks 2 32 true).cfg.check = none ∧ (clocks 2 32 true).env.script = List.replicate (1 + 1) .clock ++ [] ∧
      (clocks 2 32 true).timerRun = true ∧ (clocks 2 32 true).divCnt + 1 + 1 ≤ (clocks 2 32 true).cfg.top) ∧
    ((clocks 2 33 true).tickRun = false ∧ (clocks 2 33 true).divCnt + 1 = (clocks 2 33 true).cfg.top) ∧
    ((clocks 35 0 true).divCnt = 0 ∧ 34 + 1 = (clocks 35 0 true).cfg.divisor ∧
      (clocks 35 0 true).env.script = List.replicate (34 + 1) .clock ++ []) ∧
    (clocks 2 5 false).timerRun = false := by decide

/-- A sensing state on a looped-back line, pulled low or not. -/
def sensingLoop (b : Bool) : State :=
  { sending { started.tx with oe := false, pu := true } with
    env := { Env.reset with line := .loopback, extLow := b } }

theorem witness_TickRunsTransmitReceiveHookInOrder :
    State.reset.timerRun = false ∧
    (∃ t, takeTick (loaded [0x41] false { Env.reset with line := .loopback }) = .next t) ∧
    (loaded [0x41] false { Env.reset with line := .loopback }).cfg.txOnly = false ∧
    (loaded [0x41] false { Env.reset with line := .loopback }).rx.disabled = false ∧
    (loaded [0x41] false { Env.reset with line := .loopback }).tx.oe = true ∧
    (∃ t, takeTick (loaded [] true { Env.reset with line := .level true }) = .next t) ∧
    (loaded [] true { Env.reset with line := .level true }).rx.disabled = true ∧
    (∃ t, takeTick (loaded [] false { Env.reset with line := .level true }) = .next t) ∧
    ((∃ t, takeTick (sensingLoop false) = .next t) ∧ (sensingLoop false).env.line = .loopback ∧
      (sensingLoop false).cfg.txOnly = false ∧ (sensingLoop false).rx.disabled = false ∧
      (sensingLoop false).tx.oe = false ∧ (sensingLoop false).tx.pu = true ∧ (sensingLoop false).env.extLow = false) ∧
    ((∃ t, takeTick (sensingLoop true) = .next t) ∧ (sensingLoop true).env.extLow = true) :=
  ⟨rfl, ⟨_, rfl⟩, rfl, rfl, rfl, ⟨_, rfl⟩, rfl, ⟨_, rfl⟩, ⟨⟨_, rfl⟩, rfl, rfl, rfl, rfl, rfl, rfl⟩, ⟨_, rfl⟩, rfl⟩

theorem witness_OverrunningTickIsRefused :
    (tickBodyRuns .clock).cfg.check = none ∧ (tickBodyRuns .clock).stimulus = .clock ∧
    (tickBodyRuns .clock).timerRun = true ∧ (tickBodyRuns .clock).divCnt = (tickBodyRuns .clock).cfg.top ∧
    (tickBodyRuns .clock).tickRun = true := by decide

theorem witness_OnlyBeginStartsTheTimerAndOnlyResetStopsIt :
    ((∃ t, step (facing .clock started) = .next t) ∧ started.timerRun = true ∧
      (facing .clock started).stimulus ≠ .reset) ∧
    (State.reset.timerRun = false ∧ after State.timerRun (step (State.reset.withFetchWord 12 0x000)) = some true) ∧
    ((∃ t, step (facing .reset started) = .next t) ∧ (facing .reset started).stimulus = .reset) :=
  ⟨⟨next_of_steppable (by decide), rfl, by decide⟩, ⟨rfl, by decide⟩, ⟨next_of_steppable (by decide), rfl⟩⟩

theorem witness_EnqueueAppendsOrSpins :
    (sending (txQueued [1, 2, 3])).tx.queue.length ≠ 4 ∧
    (sending (txQueued [1, 2, 3, 4])).tx.queue.length = (sending (txQueued [1, 2, 3, 4])).cfg.nTx := by decide

theorem witness_FlushWaitsForTheTransmitter : started.tx.busy = false ∧ (sending (txHeld [])).tx.busy = true := by
  decide

theorem witness_IsBusyReportsPendingTransmission :
    (loaded [0x41] false Env.reset).tx.busy = true ∧ (loaded [] false Env.reset).tx.busy = false ∧
    TxOk (loaded [0x41] false Env.reset).cfg (loaded [0x41] false Env.reset).tx :=
  ⟨rfl, rfl, (inv_loaded [0x41] (by decide) false Env.reset).tx⟩

theorem witness_TxTickHoldsReloadsOutputsOrIdles :
    1 < (txHeld []).sub.toNat ∧ (Tx.reset.sub.toNat ≤ 1 ∧ Tx.reset.shift = 0 ∧ Tx.reset.queue = []) ∧
    ((txQueued [0x41]).sub.toNat ≤ 1 ∧ (txQueued [0x41]).shift = 0 ∧ (txQueued [0x41]).queue = 0x41 :: []) ∧
    (Tx.sub { txHeld [] with sub := 1 } = 1 ∧ Tx.shift { txHeld [] with sub := 1 } ≠ 0) := by decide

theorem witness_FrameBitsLastExactlyFTicks :
    Config.sample.check = none ∧ (txQueued [0x41]).shift = 0 ∧ (txQueued [0x41]).sub.toNat ≤ 1 ∧
    (txQueued [0x41]).queue = 0x41 :: [] ∧ (txQueued [0x41, 0x42]).queue = 0x41 :: 0x42 :: [] ∧ 9 < 10 ∧
    2 < Config.sample.f := by decide

theorem witness_BusyLastsTenFTicksPerByte :
    Config.sample.check = none ∧ (txQueued [0x41]).shift = 0 ∧ (txQueued [0x41]).sub.toNat ≤ 1 ∧
    (txQueued [0x41]).busy = true ∧ (txQueued [0x41]).queue ≠ [] := by decide

theorem witness_LowLevelInIdleStartsACharacter : Rx.reset.state = .idle := by decide

theorem witness_DataBitIsSampledWhenTheCounterRunsOut :
    (rxIn 8 2).state = .inCharacter ∧ (rxIn 8 2).sub - 1 ≠ 0 ∧ (rxIn 1 1).state = .inCharacter ∧
    (rxIn 1 1).sub - 1 = 0 := by decide

theorem witness_StopWindowEndsInAPushWhateverTheLevel :
    ((rxStop 2 [] 0 0).state = .awaitingStopBit ∧ (rxStop 2 [] 0 0).sub - 1 ≠ 0) ∧
    ((rxStop 1 [] 7 0).sub - 1 = 0 ∧ (rxStop 1 [] 7 0).full Config.sample = true) ∧
    ((rxStop 1 [] 7 1).sub - 1 = 0 ∧ (rxStop 1 [] 7 1).full Config.sample = false ∧
      (rxStop 1 [] 7 1).inIdx.toNat < Config.sample.nRx) := by decide

theorem witness_ReceiverAssemblesTheSampledLevels :
    Config.sample.check = none ∧ Config.sample.txOnly = false ∧ Rx.reset.state = .idle ∧
    Rx.reset.inIdx.toNat < Config.sample.nRx ∧ (fun n : Nat => decide (n % 2 = 1)) 0 = false ∧
    (ring [] 7 0).full Config.sample = true ∧ Rx.reset.full Config.sample = false := by decide

theorem witness_ReceiveRingIsAFifoThatDropsTheNewest :
    Config.sample.check = none ∧ Config.sample.txOnly = false ∧
    (RxOk Config.sample (ring [(0, 0x41)] 1 0) ∧ (ring [(0, 0x41)] 1 0).full Config.sample = false ∧
      (ring [(0, 0x41)] 1 0).empty = false) ∧
    RxOk Config.sample (ring [(0, 1), (1, 2), (2, 3), (3, 4), (4, 5), (5, 6), (7, 0)] 6 7) ∧
    (ring [(0, 1), (1, 2), (2, 3), (3, 4), (4, 5), (5, 6), (7, 0)] 6 7).full Config.sample = true :=
  ⟨by decide, rfl, ⟨rxOk_one, by decide, by decide⟩, rxOk_full, by decide⟩

theorem witness_AvailableAnswersTheUnreadCount :
    started.cfg.check = none ∧ txOnlyStarted.cfg.check = none ∧ txOnlyStarted.cfg.txOnly = true ∧
    (receiving (ring [] 7 0)).rx.inIdx.toNat < Config.sample.nRx ∧
    (receiving (ring [] 7 0)).rx.outIdx.toNat < Config.sample.nRx ∧
    Config.check { Config.sample with nRx := 128 } = none ∧ (ring [] 0 127).outIdx.toNat < 128 := by decide

theorem witness_ReadPopsTheOldestByte :
    started.cfg.txOnly = false ∧ started.rx.inIdx = started.rx.outIdx ∧
    (receiving (ring [(7, 0xFF)] 0 7)).rx.inIdx ≠ (receiving (ring [(7, 0xFF)] 0 7)).rx.outIdx ∧
    (receiving (ring [(7, 0xFF)] 0 7)).rx.outIdx.toNat < Config.sample.nRx ∧
    (receiving (ring [(7, 0xFF)] 0 7)).rx.buf.get 7 = some 0xFF := by decide

theorem witness_PeekShowsTheByteReadWouldPop :
    started.cfg.txOnly = false ∧ started.rx.inIdx = started.rx.outIdx ∧
    (receiving (ring [(0, 0x41)] 1 0)).rx.inIdx ≠ (receiving (ring [(0, 0x41)] 1 0)).rx.outIdx ∧
    (receiving (ring [(0, 0x41)] 1 0)).rx.outIdx.toNat < Config.sample.nRx ∧
    (receiving (ring [(0, 0x41)] 1 0)).rx.buf.get 0 = some 0x41 ∧
    ∃ u, takeTick (State.done (receiving (ring [(0, 0x41)] 1 0)) 0x041) = .next u :=
  ⟨rfl, rfl, by decide, by decide, rfl, ⟨_, rfl⟩⟩

theorem witness_UnwrittenRingSlotFaults :
    started.cfg.txOnly = false ∧ (ring [] 0 7).inIdx ≠ (ring [] 0 7).outIdx ∧
    (ring [] 0 7).outIdx.toNat < Config.sample.nRx ∧ (ring [] 0 7).buf.get 7 = none ∧
    Config.sample.nRx ≤ (ring [] 0 8).outIdx.toNat ∧ (ring [] 0 8).inIdx ≠ (ring [] 0 8).outIdx := by decide

theorem witness_RxEnableClearsTheDisabledFlag : started.cfg.txOnly = false := by decide

theorem witness_RxDisableWaitsThenEmptiesTheQueue :
    started.cfg.txOnly = false ∧ (receiving (rxIn 8 4)).rx.busy = true ∧ started.rx.busy = false ∧
    ∃ t, exec .rxDisable started = .next t :=
  ⟨rfl, rfl, rfl, next_of_executable (by decide)⟩

theorem witness_TxOnlyReceiveCommandsAreStubs : txOnlyStarted.cfg.txOnly = true := by decide

theorem witness_TxOnlyRunsIgnoreTheReceiver :
    (facing .clock txOnlyStarted).cfg.txOnly = true ∧ (facing .clock txOnlyStarted).stimulus ≠ .reset ∧
    ∃ t, step (facing .clock txOnlyStarted) = .next t :=
  ⟨rfl, by decide, next_of_steppable (by decide)⟩

theorem witness_HookCommandsReplaceTheHandle :
    (∃ t u, exec (.setTickHook 0x01) (loaded [] true Env.reset) = .next t ∧ takeTick t = .next u) ∧
    ∃ t, exec (.setIdleHook 0x07) (sending (txHeld [])) = .next t ∧ t.tx.busy = true :=
  ⟨⟨_, _, rfl, rfl⟩, ⟨_, rfl, rfl⟩⟩

theorem witness_SenseBeginReleasesThePinWhenIdle :
    (loaded [] false Env.reset).tx.busy = false ∧ (sending (txHeld [])).tx.busy = true ∧
    TxOk (loaded [] false Env.reset).cfg (loaded [] false Env.reset).tx :=
  ⟨rfl, rfl, (inv_loaded [] (by decide) false Env.reset).tx⟩

/-- A sensing state, with the line pulled low or not. -/
def sensing (b : Bool) : State :=
  { sending { started.tx with oe := false, pu := true } with env := { Env.reset with extLow := b } }

theorem witness_ReadPinAnswersThePadLevel :
    (started.tx.oe = true ∧ started.tx.pu = false ∧ started.env.extLow = false) ∧
    ((sensing false).tx.oe = false ∧ (sensing false).tx.pu = true ∧ (sensing false).env.extLow = false) ∧
    ((sensing true).tx.oe = false ∧ (sensing true).env.extLow = true) := by decide

theorem witness_SenseModeDoesNotGateTheTransmitter :
    (Instr.flush = .flush ∨ Instr.flush = .isBusy ∨ ∃ d, Instr.flush = .enqueue d) ∧
    (∃ d, Instr.enqueue 0x41 = .enqueue d) := ⟨.inl rfl, _, rfl⟩

theorem witness_EndDisablesReceiveThenFlushes :
    (started.phase = .zero ∧ started.cfg.txOnly = false ∧ started.rx.busy = false ∧
      (receiving (rxIn 8 4)).rx.busy = true ∧ (receiving (rxIn 8 4)).phase = .zero) ∧
    (State.phase { started with fg := .spin .endCmd .one } = .one ∧ started.tx.busy = false ∧
      (sending (txHeld [])).tx.busy = true) ∧
    (txOnlyStarted.cfg.txOnly = true ∧ txOnlyStarted.phase = .zero ∧ txOnlyStarted.tx.busy = false) := by decide

theorem witness_ReservedOpcodeDoesNothing : opcodeField 0xF12#12 = 0xF#4 := by decide

theorem witness_SnapshotCommandsChangeNothing :
    (∃ t, exec .peek (receiving (ring [(0, 0x41)] 1 0)) = .next t) ∧
    (∃ t, exec .read (receiving (ring [(0, 0x41)] 1 0)) = .next t) ∧
    (receiving (ring [(0, 0x41)] 1 0)).cfg.txOnly = false ∧
    (receiving (ring [(0, 0x41)] 1 0)).rx.inIdx ≠ (receiving (ring [(0, 0x41)] 1 0)).rx.outIdx :=
  ⟨next_of_executable (by decide), next_of_executable (by decide), rfl, by decide⟩

theorem witness_CommandsWriteOnlyForegroundState :
    (∃ t, exec (.enqueue 0x41) started = .next t) ∧ (∃ t, exec .isBusy started = .next t) ∧
    (∀ d, Instr.isBusy ≠ .enqueue d) ∧ Instr.isBusy ≠ .beginCmd ∧ Instr.isBusy ≠ .rxDisable :=
  ⟨next_of_executable (by decide), next_of_executable (by decide), fun _ h => (by cases h), by decide, by decide⟩

theorem witness_TickWritesOnlyTickState :
    (∃ t, takeTick (receiving (rxStop 1 [] 0 0)) = .next t) ∧
    (∃ t, takeTick (loaded [] true Env.reset) = .next t) ∧ (loaded [] true Env.reset).rx.disabled = true ∧
    (1 : Nat) ≠ (receiving (rxStop 1 [] 0 0)).rx.inIdx.toNat := ⟨⟨_, rfl⟩, ⟨_, rfl⟩, rfl, by decide⟩

/-- An environment with the stimulus `x` next. -/
def envFacing (x : Stimulus) (l : Line) : Env := { Env.reset with script := [x], line := l }

theorem witness_DisabledReceiverIsFrozen :
    Inv (loaded [0x41] true (envFacing .clock .free)) ∧
    (loaded [0x41] true (envFacing .clock .free)).rx.disabled = true ∧
    (∃ t, step (loaded [0x41] true (envFacing .clock .free)) = .next t) ∧
    (loaded [0x41] true (envFacing .clock .free)).stimulus ≠ .reset :=
  ⟨inv_loaded _ (by decide) _ _, rfl, next_of_steppable (by decide), by decide⟩

/-- FLUSH waits before BEGIN. -/
def hung : State := facing .foreground { sending (txQueued [0x41]) with timerRun := false, fg := .spin .flush .zero }

/-- ENQUEUE waits before BEGIN with the queue at N_TX. -/
def hungFull : State :=
  facing .clock
    { sending (txQueued [1, 2, 3, 4]) with timerRun := false, fg := .spin (.enqueue 5) .zero }

theorem witness_BlockingBeforeBeginHangs :
    (BlockedBeforeBegin hung ∧ (∃ t, step hung = .next t) ∧ hung.stimulus = .foreground ∧ hung.tickRun = false ∧
      hung.idleRun = false) ∧
    (BlockedBeforeBegin hungFull ∧ (∃ t, step hungFull = .next t) ∧ hungFull.stimulus ≠ .reset) :=
  ⟨⟨⟨rfl, .inl ⟨rfl, rfl⟩⟩, next_of_steppable (by decide), rfl, rfl, rfl⟩,
    ⟨⟨rfl, .inr (.inr (.inr ⟨5, rfl, rfl⟩))⟩, next_of_steppable (by decide), by decide⟩⟩

theorem witness_ResetSatisfiesTheInvariant :
    Config.sample.check = none ∧ Config.check { Config.sample with txOnly := true } = none := by decide

theorem witness_StepKeepsTheInvariant :
    Inv (loaded [0x41] false (envFacing .clock .free)) ∧
    ∃ t, step (loaded [0x41] false (envFacing .clock .free)) = .next t :=
  ⟨inv_loaded _ (by decide) _ _, next_of_steppable (by decide)⟩

/-- A tick-hook body runs in a state of the invariant. -/
theorem inv_tickBodyRuns (x : Stimulus) : Inv (tickBodyRuns x) := by
  have h := inv_loaded [] (by decide) false (envFacing x .free)
  exact ⟨h.legal, h.tx, h.rx, h.rx_absent, by show (34 : Nat) ≤ Config.sample.top; decide, fun h => (by cases h),
    h.pin_set, h.spinning, h.idle_body, fun _ => (by show (0x01#8 : Handle) ≠ 0; decide)⟩

/-- Both refusal cases are met in states of the invariant: a TICK due, and a command issued, while a tick hook runs. -/
theorem witness_NoStepFaultsUnderTheInvariant :
    Inv (loaded [0x41] false Env.reset) ∧
    (Inv (tickBodyRuns .clock) ∧ refusal (step (tickBodyRuns .clock)) = some .tickOverrun) ∧
    (Inv (tickBodyRuns (.offer 0x400)) ∧
      refusal (step (tickBodyRuns (.offer 0x400))) = some (.commandFromHook 0x400)) :=
  ⟨inv_loaded _ (by decide) _ _, ⟨inv_tickBodyRuns _, by decide⟩, ⟨inv_tickBodyRuns _, by decide⟩⟩

theorem witness_LoopbackRoundTripYieldsTheByte :
    (loaded [0x41] false (envFacing .clock .loopback)).cfg.check = none ∧
    (loaded [0x41] false (envFacing .clock .loopback)).cfg.txOnly = false ∧
    (loaded [0x41] false (envFacing .clock .loopback)).env.line = .loopback ∧
    (loaded [0x41] false (envFacing .clock .loopback)).env.extLow = false ∧
    (loaded [0x41] false (envFacing .clock .loopback)).tx.oe = true ∧
    (loaded [0x41] false (envFacing .clock .loopback)).tx.queue = 0x41 :: [] ∧
    (txQueued [0x41]).shift = 0 ∧ (txQueued [0x41]).sub.toNat ≤ 1 ∧
    (loaded [0x41] false (envFacing .clock .loopback)).rx.state = .idle ∧
    (loaded [0x41] false (envFacing .clock .loopback)).rx.disabled = false ∧
    (loaded [0x41] false (envFacing .clock .loopback)).rx.inIdx.toNat < 8 ∧
    (loaded [0x41] false (envFacing .clock .loopback)).rx.full Config.sample = false := by decide

theorem witness_LoopbackDeliversTheSequenceInOrder :
    Inv (loaded [0x41, 0x42] false (envFacing .clock .loopback)) ∧
    (loaded [0x41, 0x42] false (envFacing .clock .loopback)).env.line = .loopback ∧
    (loaded [0x41, 0x42] false (envFacing .clock .loopback)).env.extLow = false ∧
    (loaded [0x41, 0x42] false (envFacing .clock .loopback)).cfg.txOnly = false ∧
    (loaded [0x41, 0x42] false (envFacing .clock .loopback)).tx.oe = true ∧
    ((txQueued [0x41, 0x42]).shift = 0 ∧ (txQueued [0x41, 0x42]).sub.toNat ≤ 1) ∧
    (loaded [0x41, 0x42] false (envFacing .clock .loopback)).rx.state = .idle ∧
    (loaded [0x41, 0x42] false (envFacing .clock .loopback)).rx.disabled = false ∧
    (loaded [0x41, 0x42] false (envFacing .clock .loopback)).rx.count Config.sample + 2 ≤ 8 - 1 :=
  ⟨inv_loaded _ (by decide) _ _, rfl, rfl, rfl, rfl, by decide, rfl, rfl, by decide⟩

end Sys2Proof.Tests
end

section
/-! SUPPORT. Illegal configurations never run, and the constants of a legal one fit their registers
(00_scope.md R5 to R9, 60_exceptions.md R201). -/

namespace Sys2Proof

/-- A constant that fits a byte register is read back from it unchanged. -/
theorem byte_toNat_ofNat {n : Nat} (h : n < 2 ^ 8) : (BitVec.ofNat 8 n).toNat = n := by
  rw [BitVec.toNat_ofNat, Nat.mod_eq_of_lt h]

variable {c : Config}

theorem Config.errors_eq_nil_iff_check : c.errors = [] ↔ c.check = none := by
  rw [Config.check, List.head?_eq_none_iff]

/-- The error that rejects an illegal configuration is one it has. -/
theorem Config.exists_check_eq_some (h : c.errors ≠ []) : ∃ e ∈ c.errors, c.check = some e :=
  ⟨c.errors.head h, List.head_mem h, List.head?_eq_some_head h⟩

/-- R201 read from the other side: a configuration is legal exactly when every condition CE1 to CE7 fails. -/
theorem Config.check_eq_none_iff : c.check = none ↔
    3 ≤ c.f ∧ c.f ≤ 170 ∧ (c.txOnly = false → c.nRx ≤ 128) ∧ (c.txOnly = false → 1 < c.nRx) ∧ 1 ≤ c.nTx ∧
    c.top ≤ c.timerTopMax ∧ 1 ≤ c.divisor ∧ 1 ≤ c.baud ∧ 1 ≤ c.fClk := by
  simp [← Config.errors_eq_nil_iff_check, Config.errors, Nat.one_le_iff_ne_zero]

theorem Config.top_add_one (h : 1 ≤ c.divisor) : c.top + 1 = c.divisor := Nat.sub_add_cancel h

namespace Machine

theorem step_of_illegal {s : State} {e : ConfigError} (h : s.cfg.check = some e) :
    step s = .refused (.illegalConfig e) := by
  simp [step, h]

theorem instantiate_of_illegal {e : ConfigError} (h : c.check = some e) : State.instantiate c = .error e := by
  simp [State.instantiate, h]

/-- R12, R77: a ring of at most 256 slots is indexed without loss by eight bits. -/
theorem nextSlot_toNat (hpos : 0 < c.nRx) (hle : c.nRx ≤ 256) (i : BitVec 8) :
    (nextSlot c i).toNat = (i.toNat + 1) % c.nRx := by
  have hlt : (i.toNat + 1) % c.nRx < 2 ^ 8 := (Nat.mod_lt _ hpos).trans_le hle
  exact byte_toNat_ofNat hlt

/-- Settles O7: the check that refuses the step is the one that rejects the instance, and it names a listed error. -/
theorem illegalConfigurationNeverRuns : Obligations.IllegalConfigurationNeverRuns := by
  intro s hs
  obtain ⟨e, hmem, hcheck⟩ := Config.exists_check_eq_some hs
  exact ⟨e, hmem, step_of_illegal hcheck, instantiate_of_illegal hcheck⟩

/-- Settles O8: CE2 bounds `F` by 170, so `F + F div 2` is at most 255; CE3 and CE4 bound the ring; CE7 excludes
`DIVISOR = 0`, the one value for which `TOP` is not its predecessor. -/
theorem legalParametersFitTheirRegisters : Obligations.LegalParametersFitTheirRegisters := by
  intro c hc
  obtain ⟨hf, hf', hring', hring, hTx, htop, hdiv, -, -⟩ := Config.check_eq_none_iff.mp hc
  have hdelay : c.f + c.f / 2 < 2 ^ 8 := by omega
  refine ⟨hf, hf', hTx, hdiv, htop, Config.top_add_one hdiv, ?_, ?_, fun hduplex => ?_⟩
  · exact byte_toNat_ofNat (by omega)
  · exact byte_toNat_ofNat hdelay
  · have hlo := hring hduplex
    have hhi := hring' hduplex
    exact ⟨hlo, hhi, nextSlot_toNat (by omega) (by omega)⟩

end Machine
end Sys2Proof
end

section
/-! SUPPORT. READ and PEEK of a ring slot that holds no byte (10_state.md R34, 20_memory.md R60). -/

namespace Sys2Proof.Machine

theorem memRead_of_unwritten {c : Config} {m : Memory} {i : Nat} (hi : i < c.nRx) (h : m.get i = none) :
    memRead c m i = .error (.rxSlotUnwritten i) := by
  simp [memRead, hi, h]

theorem memRead_of_absent {c : Config} {m : Memory} {i : Nat} (hi : c.nRx ≤ i) :
    memRead c m i = .error (.rxSlotAbsent i) := by
  simp [memRead, Nat.not_lt.2 hi]

theorem Rx.empty_eq_false_iff {r : Rx} : r.empty = false ↔ r.inIdx ≠ r.outIdx := by
  simp [Rx.empty]

/-- READ and PEEK of a ring with unread bytes pass on the fault of their one ring read. -/
theorem exec_read_peek_of_memRead_error {s : State} {e : Fault} (hduplex : s.cfg.txOnly = false)
    (hunread : s.rx.inIdx ≠ s.rx.outIdx) (hread : memRead s.cfg s.rx.buf s.rx.outIdx.toNat = .error e) :
    exec .read s = .fault e ∧ exec .peek s = .fault e := by
  have hempty : s.rx.empty = false := Rx.empty_eq_false_iff.2 hunread
  simp [exec, execRead, execPeek, Rx.pop, Rx.front, hduplex, hempty, hread]

/-- Settles O33: both commands make one ring read, at `rx_out`, and that read is the fault. -/
theorem unwrittenRingSlotFaults : Obligations.UnwrittenRingSlotFaults := by
  intro s hduplex hunread
  refine ⟨fun hlt hnone => ?_, fun hle => ?_⟩
  · exact exec_read_peek_of_memRead_error hduplex hunread (memRead_of_unwritten hlt hnone)
  · exact exec_read_peek_of_memRead_error hduplex hunread (memRead_of_absent hle)

end Sys2Proof.Machine
end

section
/-! SUPPORT. Replacing the receive side commutes with every operation of the TX_ONLY variant (10_state.md R20,
42_receive.md R151). -/

namespace Sys2Proof.Machine

variable (s u : State) (r : Rx) (i : Instr) (p : Phase)

@[simp] theorem State.withRx_rx_self : s.withRx s.rx = s := rfl

/-! What an operation that does not read the receive side answers is the same but for that side. -/

@[simp] theorem State.whenTxIdle_withRx :
    (s.withRx r).whenTxIdle i p (u.withRx r) = (s.whenTxIdle i p u).withRx r := by
  simp only [State.whenTxIdle, State.spin_eq_spun, State.withRx_tx]
  split <;> rfl

@[simp] theorem State.invokeTickHook_withRx : (s.withRx r).invokeTickHook = s.invokeTickHook.withRx r := by
  unfold State.invokeTickHook
  simp only [apply_ite (State.withRx · r)]
  rfl

@[simp] theorem State.hookDone_withRx : (s.withRx r).hookDone = s.hookDone.withRx r := by
  unfold State.hookDone
  simp only [apply_ite (State.withRx · r)]
  rfl

@[simp] theorem State.hookRuns_withRx : (s.withRx r).hookRuns = s.hookRuns := rfl

@[simp] theorem onNext_next (f : State → State) : onNext f (.next s) = .next (f s) := rfl

/-- In the TX_ONLY variant no command reads or writes the receive side. -/
theorem exec_withRx_of_txOnly (h : s.cfg.txOnly = true) :
    exec i (s.withRx r) = onNext (fun t => t.withRx r) (exec i s) := by
  cases i with
  | beginCmd => rfl
  | isBusy => rfl
  | senseEnd => rfl
  | readPin => rfl
  | setTickHook _ => rfl
  | setIdleHook _ => rfl
  | reservedF => rfl
  | flush => exact congrArg Host.Outcome.next (State.whenTxIdle_withRx s (s.done rspDone) r _ _)
  | senseBegin =>
    exact congrArg Host.Outcome.next (State.whenTxIdle_withRx s ((s.withTx s.tx.release).done rspDone) r _ _)
  | endCmd =>
    simp only [exec, execEnd, State.withRx_cfg, h, reduceCtorEq, and_false, if_false]
    exact congrArg Host.Outcome.next (State.whenTxIdle_withRx s (s.done rspDone) r _ _)
  | enqueue d =>
    simp only [exec, execEnqueue, State.spin_eq_spun, State.withRx_tx, State.withRx_cfg]
    split <;> rfl
  | available => simp only [exec, execAvailable, State.withRx_cfg, h]; rfl
  | read => simp only [exec, execRead, State.withRx_cfg, h]; rfl
  | peek => simp only [exec, execPeek, State.withRx_cfg, h]; rfl
  | rxEnable => simp only [exec, execRxEnable, State.withRx_cfg, h]; rfl
  | rxDisable => simp only [exec, execRxDisable, State.withRx_cfg, h]; rfl

theorem takeTick_withRx_of_txOnly (h : s.cfg.txOnly = true) :
    takeTick (s.withRx r) = onNext (fun t => t.withRx r) (takeTick s) := by
  simp only [takeTick, State.receivePart, State.withTx_cfg, State.withRx_cfg, h, Bool.true_or, if_true]
  exact congrArg Host.Outcome.next (State.invokeTickHook_withRx (s.withTx (txTick s.cfg s.tx)) r)

theorem clockEdge_withRx_of_txOnly (h : s.cfg.txOnly = true) :
    clockEdge (s.withRx r) = onNext (fun t => t.withRx r) (clockEdge s) := by
  have htick : takeTick { s.withRx r with divCnt := 0 } =
      onNext (fun t => t.withRx r) (takeTick { s with divCnt := 0 }) :=
    takeTick_withRx_of_txOnly { s with divCnt := 0 } r h
  unfold clockEdge
  rw [htick]
  simp only [apply_ite (onNext _)]
  rfl

theorem foregroundStep_withRx_of_txOnly (h : s.cfg.txOnly = true) :
    foregroundStep (s.withRx r) = onNext (fun t => t.withRx r) (foregroundStep s) := by
  have hcmd (i : Instr) (ws : List CmdWord) :
      exec i ((s.withRx r).withPort ws) = onNext (fun t => t.withRx r) (exec i (s.withPort ws)) :=
    exec_withRx_of_txOnly (s.withPort ws) r i h
  unfold foregroundStep
  cases hr : s.hookRuns with
  | true => simp [hr]
  | false =>
    cases hf : s.fg with
    | spin c _ => simp [hr, hf, exec_withRx_of_txOnly s r c h]
    | ready => cases hp : s.env.port <;> simp [hr, hf, hp, hcmd]

theorem offerWord_withRx (w : CmdWord) :
    offerWord w (s.withRx r) = onNext (fun t => t.withRx r) (offerWord w s) := by
  unfold offerWord
  simp only [apply_ite (onNext _)]
  rfl

theorem react_withRx_of_txOnly (x : Stimulus) (h : s.cfg.txOnly = true) (hx : x ≠ .reset) :
    react x (s.withRx r) = onNext (fun t => t.withRx r) (react x s) := by
  cases x with
  | clock => exact clockEdge_withRx_of_txOnly s r h
  | foreground => exact foregroundStep_withRx_of_txOnly s r h
  | hookDone => exact congrArg Host.Outcome.next (State.hookDone_withRx s r)
  | offer w => exact offerWord_withRx s r w
  | setLine l => rfl
  | setExtLow b => rfl
  | reset => exact absurd rfl hx

theorem countStep_onNext_withRx (o : Host.Outcome State Fault Refusal) :
    countStep (onNext (fun t => t.withRx r) o) = onNext (fun t => t.withRx r) (countStep o) := by
  cases o <;> rfl

/-- In the TX_ONLY variant replacing the receive side commutes with every step but reset. -/
theorem step_withRx_of_txOnly (h : s.cfg.txOnly = true) (hx : s.stimulus ≠ .reset) :
    step (s.withRx r) = onNext (fun t => t.withRx r) (step s) := by
  cases hc : s.cfg.check with
  | some e => rw [step_of_illegal hc, step_of_illegal (s := s.withRx r) hc]; rfl
  | none =>
    rw [step_of_legal hc, step_of_legal (s := s.withRx r) hc, ← countStep_onNext_withRx]
    exact congrArg countStep (react_withRx_of_txOnly s.opened r s.stimulus h hx)

/-- A step that commutes with replacing the receive side by the present one answers a state with the present one. -/
theorem step_rx_of_txOnly {s t : State} (h : s.cfg.txOnly = true) (hx : s.stimulus ≠ .reset) (hs : step s = .next t) :
    t.rx = s.rx := by
  have hself := step_withRx_of_txOnly s s.rx h hx
  rw [State.withRx_rx_self, hs, onNext_next] at hself
  have ht : t = t.withRx s.rx := Host.Outcome.next.inj hself
  rw [ht, State.withRx_rx]

/-- Settles O37: replacing the receive side commutes with the step, and with the present side that says it is kept. -/
theorem txOnlyRunsIgnoreTheReceiver : Obligations.TxOnlyRunsIgnoreTheReceiver :=
  fun s r h hx => ⟨step_withRx_of_txOnly s r h hx, fun _ hs => step_rx_of_txOnly h hx hs⟩

end Sys2Proof.Machine
end

section
/-! SUPPORT. TxTick and the commands keep the transmit invariant (10_state.md R21 to R26, R45). -/

namespace Sys2Proof.Machine

/-- The stop bit is 1 (R80), so a frame is never the empty shift register. -/
theorem frame_ne_zero (b : Byte) : frame b ≠ 0 := by
  intro h
  have hstop : (frame b).getLsbD 9 = true := by
    simp only [frame, BitVec.getLsbD_append]
    rfl
  rw [h] at hstop
  cases hstop

/-- The last bit a shift register gives out is 1. -/
theorem getLsbD_zero_of_ushiftRight_eq_zero {w : FrameWord} (hw : w ≠ 0) (h : w >>> 1 = 0) :
    w.getLsbD 0 = true := by
  have h1 : w = 1 := by bv_omega
  rw [h1]
  rfl

/-- The four outcomes of TxTick (R123): hold the bit, go idle, reload and output the start bit, output the next bit. -/
theorem txTick_cases (c : Config) (t : Tx) :
    (1 < t.sub.toNat ∧ txTick c t = { t with sub := t.sub - 1 }) ∨
    (t.shift = 0 ∧ t.queue = [] ∧ txTick c t = { t with sub := 0, busy := false }) ∨
    (∃ b bs, t.shift = 0 ∧ t.queue = b :: bs ∧ txTick c t = Tx.output c { t with queue := bs, shift := frame b }) ∨
    (t.shift ≠ 0 ∧ txTick c t = t.output c) := by
  rw [txTick_eq]
  split
  case isTrue hheld => exact .inl ⟨hheld, rfl⟩
  case isFalse => exact .inr (Tx.advance_cases c { t with sub := 0 })

namespace TxOk

variable {c : Config} {t : Tx}

/-- A tick that outputs a bit of a loaded shift register. -/
theorem output (hroom : t.len ≤ c.nTx) (hpin : ¬(t.oe = true ∧ t.pu = true)) (hf : 3 ≤ c.f) (hf' : c.f ≤ 170)
    (hbusy : t.busy = true) (hw : t.shift ≠ 0) : TxOk c (t.output c) := by
  have hsub : (BitVec.ofNat 8 c.f).toNat = c.f := byte_toNat_ofNat (by omega)
  have hne : BitVec.ofNat 8 c.f ≠ 0 := by bv_omega
  exact
    { room := hroom
      sub_le := hsub.le
      busy_iff := iff_of_true hbusy (.inr (.inr hne))
      pin := hpin
      idle_high := getLsbD_zero_of_ushiftRight_eq_zero hw }

/-- TxTick (R123): a held bit keeps `tx_busy` at 1, a loaded or reloaded register was pending work, and the idle branch
clears `tx_busy` with nothing left. -/
theorem txTick (h : TxOk c t) (hf : 3 ≤ c.f) (hf' : c.f ≤ 170) : TxOk c (txTick c t) := by
  obtain ⟨hheld, ht⟩ | ⟨hw, hq, ht⟩ | ⟨b, bs, hw, hq, ht⟩ | ⟨hw, ht⟩ := txTick_cases c t <;> rw [ht]
  · have hsub : (t.sub - 1).toNat ≤ c.f := by have := h.sub_le; bv_omega
    have hne : t.sub - 1 ≠ 0 := by bv_omega
    have hbusy : t.busy = true := h.busy_iff.2 (.inr (.inr (by bv_omega)))
    exact { h with sub_le := hsub, busy_iff := iff_of_true hbusy (.inr (.inr hne)) }
  · exact { h with sub_le := Nat.zero_le _, busy_iff := iff_of_false Bool.false_ne_true (by simp [hw, hq]) }
  · have hbusy : t.busy = true := h.busy_iff.2 (.inl (by simp [hq]))
    have hroom : bs.length ≤ c.nTx := by
      have := h.room
      simp only [Tx.len, hq, List.length_cons] at this
      omega
    exact output hroom h.pin hf hf' hbusy (frame_ne_zero b)
  · have hbusy : t.busy = true := h.busy_iff.2 (.inr (.inl hw))
    exact output h.room h.pin hf hf' hbusy hw

/-- ENQUEUE of a byte there is room for (R120). -/
theorem push_setBusy (h : TxOk c t) (hroom : t.len ≠ c.nTx) (b : Byte) : TxOk c (t.push b).setBusy :=
  { h with
    room := by
      have hlen : (t.push b).setBusy.len = t.len + 1 := List.length_append
      have := h.room
      omega
    busy_iff := iff_of_true rfl (.inl (List.append_ne_nil_of_right_ne_nil _ (List.cons_ne_nil b []))) }

/-- SENSE_BEGIN's pin mode (R180). -/
theorem release (h : TxOk c t) : TxOk c t.release := { h with pin := by simp [Tx.release] }

/-- The pin mode of BEGIN and SENSE_END (R181, R190). -/
theorem driveHigh (h : TxOk c t) : TxOk c t.driveHigh :=
  { h with pin := by simp [Tx.driveHigh], idle_high := fun _ => rfl }

theorem reset : TxOk c Tx.reset where
  room := Nat.zero_le _
  sub_le := Nat.zero_le _
  busy_iff := by decide
  pin := by decide
  idle_high := fun _ => rfl

end TxOk

end Sys2Proof.Machine
end

section
/-! SUPPORT. The arithmetic of the receive ring: counts and slots modulo N_RX (20_memory.md R75 to R77). -/

namespace Sys2Proof

/-- CE3: the slots of a legal ring have 8-bit indices. -/
theorem Config.nRx_le {c : Config} (hc : c.check = none) (hduplex : c.txOnly = false) : c.nRx ≤ 256 := by
  obtain ⟨-, -, hring, -⟩ := Config.check_eq_none_iff.1 hc
  exact (hring hduplex).trans (by decide)

namespace Machine

variable {c : Config} {r : Rx}

theorem nextSlot_toNat_eq_ite {i : BitVec 8} (hi : i.toNat < c.nRx) (hle : c.nRx ≤ 256) :
    (nextSlot c i).toNat = if i.toNat + 1 = c.nRx then 0 else i.toNat + 1 := by
  rw [nextSlot_toNat (by omega) hle]
  split
  case isTrue h => rw [h, Nat.mod_self]
  case isFalse => exact Nat.mod_eq_of_lt (by omega)

theorem nextSlot_toNat_lt {i : BitVec 8} (hi : i.toNat < c.nRx) (hle : c.nRx ≤ 256) :
    (nextSlot c i).toNat < c.nRx := by
  rw [nextSlot_toNat (by omega) hle]
  exact Nat.mod_lt _ (by omega)

namespace Rx

theorem count_eq_ite (hi : r.inIdx.toNat < c.nRx) (ho : r.outIdx.toNat < c.nRx) :
    r.count c =
      if r.outIdx.toNat ≤ r.inIdx.toNat then r.inIdx.toNat - r.outIdx.toNat
      else r.inIdx.toNat + c.nRx - r.outIdx.toNat := by
  unfold Rx.count
  split
  · rw [Int.emod_eq_of_lt (by omega) (by omega)]
    omega
  · rw [← Int.add_emod_right, Int.emod_eq_of_lt (by omega) (by omega)]
    omega

theorem count_lt (hi : r.inIdx.toNat < c.nRx) (ho : r.outIdx.toNat < c.nRx) : r.count c < c.nRx := by
  rw [count_eq_ite hi ho]
  split <;> omega

theorem slot_eq_ite {k : Nat} (ho : r.outIdx.toNat < c.nRx) (hk : k < c.nRx) :
    (r.outIdx.toNat + k) % c.nRx =
      if c.nRx ≤ r.outIdx.toNat + k then r.outIdx.toNat + k - c.nRx else r.outIdx.toNat + k := by
  rw [Nat.add_mod_eq_ite, Nat.mod_eq_of_lt ho, Nat.mod_eq_of_lt hk]

/-- The slot after the last unread one is `rx_in`. -/
theorem slot_count (hi : r.inIdx.toNat < c.nRx) (ho : r.outIdx.toNat < c.nRx) :
    (r.outIdx.toNat + r.count c) % c.nRx = r.inIdx.toNat := by
  rw [slot_eq_ite ho (count_lt hi ho), count_eq_ite hi ho]
  split <;> split <;> omega

/-- No unread slot is `rx_in`. -/
theorem slot_ne_inIdx {k : Nat} (hi : r.inIdx.toNat < c.nRx) (ho : r.outIdx.toNat < c.nRx) (hk : k < r.count c) :
    (r.outIdx.toNat + k) % c.nRx ≠ r.inIdx.toNat := by
  rw [slot_eq_ite ho (hk.trans (count_lt hi ho))]
  rw [count_eq_ite hi ho] at hk
  split <;> split at hk <;> omega

/-- A push to a ring with room adds one to the count. -/
theorem count_inIdx_nextSlot (hi : r.inIdx.toNat < c.nRx) (ho : r.outIdx.toNat < c.nRx) (hle : c.nRx ≤ 256)
    (hfull : r.full c = false) (m : Memory) :
    Rx.count c { r with buf := m, inIdx := nextSlot c r.inIdx } = r.count c + 1 := by
  have hne : (nextSlot c r.inIdx).toNat ≠ r.outIdx.toNat := by
    simpa [Rx.full, BitVec.toNat_inj] using hfull
  have hnext := nextSlot_toNat_eq_ite hi hle
  rw [count_eq_ite (r := { r with buf := m, inIdx := nextSlot c r.inIdx }) (nextSlot_toNat_lt hi hle) ho,
    count_eq_ite hi ho]
  dsimp only
  split at hnext <;> split <;> split <;> omega

/-- A pop takes one from the count. -/
theorem count_outIdx_nextSlot (hi : r.inIdx.toNat < c.nRx) (ho : r.outIdx.toNat < c.nRx) (hle : c.nRx ≤ 256)
    (hunread : r.inIdx ≠ r.outIdx) :
    Rx.count c { r with outIdx := nextSlot c r.outIdx } + 1 = r.count c := by
  have hne : r.inIdx.toNat ≠ r.outIdx.toNat := mt BitVec.eq_of_toNat_eq hunread
  have hnext := nextSlot_toNat_eq_ite ho hle
  rw [count_eq_ite (r := { r with outIdx := nextSlot c r.outIdx }) hi (nextSlot_toNat_lt ho hle), count_eq_ite hi ho]
  dsimp only
  split at hnext <;> split <;> split <;> omega

end Rx

end Machine
end Sys2Proof
end

section
/-! SUPPORT. RxTick and the commands keep the receive invariant (10_state.md R27 to R36, R46, R47). -/

namespace Sys2Proof.Machine

/-- The sample of a bit with the end of the bits (R142), as one update. -/
theorem Rx.sampleBit_endOfBits (level : Level) (r : Rx) (hs : r.state = .inCharacter) :
    (r.sampleBit level).endOfBits =
      { r with acc := if level then r.acc ||| r.mask else r.acc, mask := r.mask <<< 1, bits := r.bits - 1
               state := if r.bits - 1 = 0 then .awaitingStopBit else .inCharacter } := by
  unfold Rx.endOfBits Rx.sampleBit
  dsimp only
  split <;> simp [hs]

namespace RxOk

variable {c : Config} {r : Rx}

/-- A low level in `Idle` (R141): eight bits to sample, the mask at the first, one and a half bit periods to wait. -/
theorem rxTickIdle (h : RxOk c r) (hf : 3 ≤ c.f) (hf' : c.f ≤ 170) (hd : r.disabled = false) (level : Level) :
    RxOk c (rxTickIdle c level r) := by
  have hdelay : (BitVec.ofNat 8 c.rxStartDelay).toNat = c.rxStartDelay :=
    byte_toNat_ofNat (by unfold Config.rxStartDelay; omega)
  have hpos : 1 ≤ c.rxStartDelay := by unfold Config.rxStartDelay; omega
  unfold Machine.rxTickIdle
  split
  · exact h
  · exact
      { h with
        bits_le := Nat.le_refl 8
        sub_le := hdelay.le
        busy_iff := by simp [Rx.setBusy]
        sub_pos := fun _ => hpos.trans hdelay.ge
        bits_pos := fun _ => by show 1 ≤ 8; decide
        mask_eq := fun _ => rfl
        disabled_idle := fun hd' => absurd hd' (ne_true_of_eq_false hd) }

/-- A tick that only counts down, inside a character or in the stop window (R142, R143). -/
theorem countDown (h : RxOk c r) (hs : r.state ≠ .idle) (hsub : r.sub - 1 ≠ 0) :
    RxOk c { r with sub := r.sub - 1 } := by
  have hpos := h.sub_pos hs
  have hle := h.sub_le
  exact
    { h with
      sub_le := by bv_omega
      sub_pos := fun _ => by bv_omega }

/-- A tick that samples a bit (R142): the mask moves with the count, and the eighth sample ends the character. -/
theorem sampleBit (h : RxOk c r) (hf : 3 ≤ c.f) (hf' : c.f ≤ 170) (hs : r.state = .inCharacter)
    (hd : r.disabled = false) (level : Level) :
    RxOk c (Rx.sampleBit level { r with sub := BitVec.ofNat 8 c.f }).endOfBits := by
  have hsub : (BitVec.ofNat 8 c.f).toNat = c.f := byte_toNat_ofNat (by omega)
  have hdelay : c.f ≤ c.rxStartDelay := Nat.le_add_right _ _
  have hpos := h.bits_pos hs
  have hle := h.bits_le
  have hbits : (r.bits - 1).toNat = r.bits.toNat - 1 := by bv_omega
  have hbusy : r.busy = true := h.busy_iff.2 (by simp [hs])
  have hmask : r.mask <<< 1 = 1#8 <<< (8 - (r.bits - 1).toNat) := by
    rw [h.mask_eq hs, ← BitVec.shiftLeft_add, hbits]
    congr 1
    omega
  rw [Rx.sampleBit_endOfBits level { r with sub := BitVec.ofNat 8 c.f } hs]
  exact
    { h with
      bits_le := by show (r.bits - 1).toNat ≤ 8; omega
      sub_le := hsub.le.trans hdelay
      busy_iff := iff_of_true hbusy (by dsimp only; split <;> decide)
      sub_pos := fun _ => by show 1 ≤ (BitVec.ofNat 8 c.f).toNat; omega
      bits_pos := fun hin => by
        have hmore : r.bits - 1 ≠ 0 := by simpa using hin
        bv_omega
      mask_eq := fun _ => hmask
      disabled_idle := fun hd' => absurd hd' (ne_true_of_eq_false hd) }

/-- The end of the stop window (R143), before the byte is pushed. -/
theorem toIdle (h : RxOk c r) (hd : r.disabled = false) : RxOk c { r with sub := 0, busy := false, state := .idle } :=
  { h with
    sub_le := Nat.zero_le _
    busy_iff := by simp
    sub_pos := fun hs => absurd rfl hs
    bits_pos := fun hs => by cases hs
    mask_eq := fun hs => by cases hs
    disabled_idle := fun hd' => absurd hd' (ne_true_of_eq_false hd) }

/-- A push to a ring with room (R77): the slots that were unread keep their bytes, and the new one is written. -/
theorem push (h : RxOk c r) (hle : c.nRx ≤ 256) (hd : r.disabled = false) (hfull : r.full c = false) (b : Byte) :
    RxOk c { r with buf := r.buf.set r.inIdx.toNat b, inIdx := nextSlot c r.inIdx } :=
  { h with
    in_lt := nextSlot_toNat_lt h.in_lt hle
    disabled_idle := fun hd' => absurd hd' (ne_true_of_eq_false hd)
    buf_wf := Memory.set_wf _ _ _ h.buf_wf
    buf_lt := fun cell hcell => by
      obtain rfl | hold := Memory.mem_set _ _ _ _ hcell
      · exact h.in_lt
      · exact h.buf_lt cell hold
    unread := fun k hk => by
      rw [Rx.count_inIdx_nextSlot h.in_lt h.out_lt hle hfull] at hk
      dsimp only
      obtain rfl | hlt : k = r.count c ∨ k < r.count c := by omega
      · rw [Rx.slot_count h.in_lt h.out_lt, Memory.get_set_same]
        exact Option.some_ne_none b
      · rw [Memory.get_set_other _ _ _ _ (Rx.slot_ne_inIdx h.in_lt h.out_lt hlt)]
        exact h.unread k hlt }

theorem rxTickAwaitingStop (h : RxOk c r) (hle : c.nRx ≤ 256) (hs : r.state = .awaitingStopBit)
    (hd : r.disabled = false) {r' : Rx} (ht : rxTickAwaitingStop c r = .ok r') : RxOk c r' := by
  obtain ⟨hsub, rfl⟩ | ⟨-, -, rfl⟩ | ⟨-, hfull, -, rfl⟩ := rxTickAwaitingStop_cases ht
  · exact h.countDown (by simp [hs]) hsub
  · exact h.toIdle hd
  · exact (h.toIdle hd).push hle hd hfull r.acc

theorem rxTickInCharacter (h : RxOk c r) (hf : 3 ≤ c.f) (hf' : c.f ≤ 170) (hs : r.state = .inCharacter)
    (hd : r.disabled = false) (level : Level) : RxOk c (rxTickInCharacter c level r) := by
  unfold Machine.rxTickInCharacter
  split
  case isTrue => exact h.sampleBit hf hf' hs hd level
  case isFalse hsub => exact h.countDown (by simp [hs]) hsub

/-- RxTick of an enabled receiver keeps the invariant, whatever the level. -/
theorem rxTick (h : RxOk c r) (hc : c.check = none) (hduplex : c.txOnly = false) (hd : r.disabled = false)
    {level : Level} {r' : Rx} (ht : rxTick c level r = .ok r') : RxOk c r' := by
  obtain ⟨hf, hf', -⟩ := Config.check_eq_none_iff.1 hc
  unfold Machine.rxTick at ht
  split at ht
  case h_1 => cases ht; exact h.rxTickIdle hf hf' hd level
  case h_2 hs => cases ht; exact h.rxTickInCharacter hf hf' hs hd level
  case h_3 hs => exact h.rxTickAwaitingStop (Config.nRx_le hc hduplex) hs hd ht

/-- READ of an unread byte (R147): one slot fewer is unread. -/
theorem pop (h : RxOk c r) (hle : c.nRx ≤ 256) (hunread : r.inIdx ≠ r.outIdx) :
    RxOk c { r with outIdx := nextSlot c r.outIdx } :=
  { h with
    out_lt := nextSlot_toNat_lt h.out_lt hle
    disabled_idle := fun hd => by
      obtain ⟨-, hin, hout⟩ := h.disabled_idle hd
      exact absurd (hin.trans hout.symm) hunread
    unread := fun k hk => by
      have hcount := Rx.count_outIdx_nextSlot h.in_lt h.out_lt hle hunread
      have hslot : ((nextSlot c r.outIdx).toNat + k) % c.nRx = (r.outIdx.toNat + (k + 1)) % c.nRx := by
        rw [nextSlot_toNat (Nat.zero_lt_of_lt h.out_lt) hle, Nat.mod_add_mod, Nat.add_right_comm, Nat.add_assoc]
      dsimp only
      rw [hslot]
      exact h.unread (k + 1) (by omega) }

/-- RX_ENABLE (R149). -/
theorem enable (h : RxOk c r) : RxOk c r.enable := { h with disabled_idle := fun hd => by cases hd }

/-- RX_DISABLE of an idle receiver (R150): the emptied ring has no unread slot. -/
theorem disable (h : RxOk c r) (hbusy : r.busy = false) : RxOk c r.disable := by
  have hidle : r.state = .idle := by
    by_contra hs
    exact absurd (h.busy_iff.2 hs) (by simp [hbusy])
  have hpos : 0 < c.nRx := Nat.zero_lt_of_lt h.in_lt
  have hcount : r.disable.count c = 0 := by simp [Rx.count, Rx.disable]
  exact
    { h with
      in_lt := hpos
      out_lt := hpos
      disabled_idle := fun _ => ⟨hidle, rfl, rfl⟩
      unread := fun k hk => by omega }

theorem reset (hpos : 0 < c.nRx) : RxOk c Rx.reset where
  in_lt := hpos
  out_lt := hpos
  bits_le := Nat.zero_le _
  sub_le := Nat.zero_le _
  busy_iff := by decide
  sub_pos := fun hs => absurd rfl hs
  bits_pos := fun hs => by cases hs
  mask_eq := fun hs => by cases hs
  disabled_idle := fun hd => by cases hd
  buf_wf := List.Pairwise.nil
  buf_lt := fun _ hcell => by cases hcell
  unread := fun k hk => by simp [Rx.count, Rx.reset] at hk

end RxOk

end Sys2Proof.Machine
end

section
/-! SUPPORT. Every update a step makes keeps the invariant of the machine, and so does every step (10_state.md R21 to
R47). -/

namespace Sys2Proof.Machine

/-- 10_state.md R20 to R47, 70_reset_and_hazards.md R231: the state of a legal configuration right after reset. -/
theorem inv_resetOf {c : Config} (hc : c.check = none) : Inv (State.resetOf c) where
  legal := hc
  tx := TxOk.reset
  rx := fun hduplex => by
    obtain ⟨-, -, -, hring, -⟩ := Config.check_eq_none_iff.1 hc
    exact RxOk.reset (Nat.zero_lt_of_lt (hring hduplex))
  rx_absent := fun _ => rfl
  div_le := Nat.zero_le _
  stopped := fun _ => ⟨rfl, rfl, rfl, rfl, rfl⟩
  pin_set := fun h => by cases h
  spinning := fun _ _ h => by cases h
  idle_body := fun h => by cases h
  tick_body := fun h => by cases h

/-- A pop that answers moves `rx_out` past the byte it read. -/
theorem Rx.pop_ok {c : Config} {r r' : Rx} {v : Byte} (h : r.pop c = .ok (v, r')) :
    memRead c r.buf r.outIdx.toNat = .ok v ∧ r' = { r with outIdx := nextSlot c r.outIdx } := by
  unfold Rx.pop at h
  split at h
  case h_1 hread => cases h; exact ⟨hread, rfl⟩
  case h_2 => cases h

/-- READ that answers a next state (R147, R151): it responds, and of a ring with unread bytes it pops one. -/
theorem exec_read_next {s t : State} (h : exec .read s = .next t) :
    (∃ v, t = s.done v) ∨
    (∃ v, s.cfg.txOnly = false ∧ s.rx.inIdx ≠ s.rx.outIdx ∧
      t = (s.withRx { s.rx with outIdx := nextSlot s.cfg s.rx.outIdx }).done v) := by
  simp only [exec, execRead] at h
  split at h
  case isTrue => cases h; exact .inl ⟨_, rfl⟩
  case isFalse hring =>
    simp only [Bool.or_eq_true, not_or, Bool.not_eq_true] at hring
    obtain ⟨hduplex, hempty⟩ := hring
    split at h
    case h_1 hpop =>
      cases h
      obtain ⟨-, rfl⟩ := Rx.pop_ok hpop
      exact .inr ⟨_, hduplex, Rx.empty_eq_false_iff.1 hempty, rfl⟩
    case h_2 => cases h

/-- PEEK that answers a next state (R148, R151) only responds. -/
theorem exec_peek_next {s t : State} (h : exec .peek s = .next t) : ∃ v, t = s.done v := by
  simp only [exec, execPeek] at h
  split at h
  case isTrue => cases h; exact ⟨_, rfl⟩
  case isFalse => split at h <;> cases h; exact ⟨_, rfl⟩

namespace Inv

variable {s : State}

/-! The updates. -/

/-- Neither the event nor the environment is spoken of. -/
theorem withOutEnv (h : Inv s) (o : Option Event) (e : Env) : Inv { s with out := o, env := e } := { h with }

theorem done (h : Inv s) (hidle : s.idleRun = false) (v : RspWord) : Inv (s.done v) :=
  { h with
    spinning := fun _ _ hf => by cases hf
    idle_body := fun hrun => absurd hrun (ne_true_of_eq_false hidle) }

theorem spun (h : Inv s) {i : Instr} {p : Phase} (hblock : i.blocking = true) (hp : p = .one → i = .endCmd) :
    Inv (s.spun i p) :=
  { h with
    spinning := fun _ _ hf => by cases hf; exact ⟨hblock, hp⟩
    idle_body := fun hrun => ⟨by simp, fun (hnone : s.idleHook = 0) => by
      rw [State.spun_idleRun, if_pos hnone] at hrun
      exact (h.idle_body hrun).2 hnone⟩ }

theorem goPhase (h : Inv s) (hidle : s.idleRun = false) : Inv (s.goPhase .endCmd .one) :=
  { h with
    spinning := fun _ _ hf => by cases hf; exact ⟨rfl, fun _ => rfl⟩
    idle_body := fun hrun => absurd hrun (ne_true_of_eq_false hidle) }

theorem hookDone (h : Inv s) : Inv s.hookDone := by
  unfold State.hookDone
  split
  · exact
      { h with
        stopped := fun hrun => by
          obtain ⟨hdiv, hshift, hsub, hidle, -⟩ := h.stopped hrun
          exact ⟨hdiv, hshift, hsub, hidle, rfl⟩
        tick_body := fun hrun => by cases hrun }
  · exact { h with idle_body := fun hrun => by cases hrun }

theorem invokeTickHook (h : Inv s) (hrun : s.timerRun = true) : Inv s.invokeTickHook := by
  unfold State.invokeTickHook
  split
  case isTrue => exact h.withOutEnv none s.env
  case isFalse hhook =>
    exact
      { h with
        stopped := fun hstop => absurd hrun (ne_true_of_eq_false hstop)
        tick_body := fun _ => hhook }

theorem setTickHook (h : Inv s) (hrun : s.tickRun = false) (a : Handle) : Inv { s with tickHook := a } :=
  { h with tick_body := fun hr => absurd hr (ne_true_of_eq_false hrun) }

theorem setIdleHook (h : Inv s) (hrun : s.idleRun = false) (a : Handle) : Inv { s with idleHook := a } :=
  { h with idle_body := fun hr => absurd hr (ne_true_of_eq_false hrun) }

/-- The transmit side is replaced: while the timer stands still nothing is sent, and from BEGIN on the pin has a
direction. -/
theorem withTx (h : Inv s) {t : Tx} (ht : TxOk s.cfg t)
    (hstop : s.timerRun = false → t.shift = s.tx.shift ∧ t.sub = s.tx.sub)
    (hpin : s.timerRun = true → t.oe ≠ t.pu) : Inv (s.withTx t) :=
  { h with
    tx := ht
    stopped := fun hrun => by
      obtain ⟨hdiv, hshift, hsub, hrest⟩ := h.stopped hrun
      obtain ⟨htshift, htsub⟩ := hstop hrun
      exact ⟨hdiv, htshift.trans hshift, htsub.trans hsub, hrest⟩
    pin_set := hpin }

theorem withRx (h : Inv s) (hduplex : s.cfg.txOnly = false) {r : Rx} (hr : RxOk s.cfg r)
    (hstop : s.timerRun = false → r.state = .idle) : Inv (s.withRx r) :=
  { h with
    rx := fun _ => hr
    rx_absent := fun htx => absurd htx (ne_true_of_eq_false hduplex)
    stopped := fun hrun => by
      obtain ⟨hdiv, hshift, hsub, -, htick⟩ := h.stopped hrun
      exact ⟨hdiv, hshift, hsub, hstop hrun, htick⟩ }

/-- A replaced receive side whose state machine stands where it stood. -/
theorem withRx_of_state_eq (h : Inv s) (hduplex : s.cfg.txOnly = false) {r : Rx} (hr : RxOk s.cfg r)
    (hstate : r.state = s.rx.state) : Inv (s.withRx r) :=
  h.withRx hduplex hr fun hrun => by
    obtain ⟨-, -, -, hidle, -⟩ := h.stopped hrun
    exact hstate.trans hidle

/-- BEGIN's update (R190). -/
theorem beginCmd (h : Inv s) : Inv { s with tx := s.tx.driveHigh, divCnt := 0, timerRun := true } :=
  { h with
    tx := h.tx.driveHigh
    div_le := Nat.zero_le _
    stopped := fun hrun => by cases hrun
    pin_set := fun _ => by simp [Tx.driveHigh] }

/-- Another value of the divider while the timer runs. -/
theorem withDivCnt (h : Inv s) (hrun : s.timerRun = true) {n : Nat} (hn : n ≤ s.cfg.top) : Inv { s with divCnt := n } :=
  { h with
    div_le := hn
    stopped := fun hstop => absurd hrun (ne_true_of_eq_false hstop) }

/-- The waits on `tx_busy` and `rx_busy`, which spin while the flag `b` is 1 and then go on to `u`. -/
theorem spinWhile (h : Inv s) {b : Bool} {i : Instr} {p : Phase} {u : State} (hblock : i.blocking = true)
    (hp : p = .one → i = .endCmd) (hu : b = false → Inv u) : Inv (if b then s.spin i p else u) := by
  rw [State.spin_eq_spun]
  split
  case isTrue => exact h.spun hblock hp
  case isFalse hb => exact hu (by simpa using hb)

/-! The steps. -/

/-- Every evaluation of a command, which is made only while no hook body runs. -/
theorem exec (h : Inv s) (htick : s.tickRun = false) (hidle : s.idleRun = false) {i : Instr} {t : State}
    (he : exec i s = .next t) : Inv t := by
  have hdisable (hduplex : s.cfg.txOnly = false) (hbusy : s.rx.busy = false) : Inv (s.withRx s.rx.disable) :=
    h.withRx_of_state_eq hduplex ((h.rx hduplex).disable hbusy) rfl
  cases i with
  | beginCmd => cases he; exact h.beginCmd.done hidle _
  | isBusy => cases he; exact h.done hidle _
  | readPin => cases he; exact h.done hidle _
  | reservedF => cases he; exact h.done hidle _
  | setTickHook a => cases he; exact (h.setTickHook htick a).done hidle _
  | setIdleHook a => cases he; exact (h.setIdleHook hidle a).done hidle _
  | senseEnd =>
    cases he
    have hpin : s.tx.driveHigh.oe ≠ s.tx.driveHigh.pu := by simp [Tx.driveHigh]
    exact (h.withTx h.tx.driveHigh (fun _ => ⟨rfl, rfl⟩) fun _ => hpin).done hidle _
  | senseBegin =>
    cases he
    have hpin : s.tx.release.oe ≠ s.tx.release.pu := by simp [Tx.release]
    exact h.spinWhile rfl (fun hp => by cases hp) fun _ =>
      (h.withTx h.tx.release (fun _ => ⟨rfl, rfl⟩) fun _ => hpin).done hidle _
  | flush => cases he; exact h.spinWhile rfl (fun hp => by cases hp) fun _ => h.done hidle _
  | enqueue d =>
    simp only [Machine.exec, execEnqueue, State.spin_eq_spun, State.respond_eq_done] at he
    split at he
    case isTrue => cases he; exact h.spun rfl fun hp => by cases hp
    case isFalse hroom =>
      cases he
      exact (h.withTx (h.tx.push_setBusy hroom d) (fun _ => ⟨rfl, rfl⟩) h.pin_set).done hidle _
  | endCmd =>
    simp only [Machine.exec, execEnd] at he
    split at he
    case isTrue hphase =>
      cases he
      exact h.spinWhile rfl (fun _ => rfl) fun hbusy => (hdisable hphase.2 hbusy).goPhase hidle
    case isFalse => cases he; exact h.spinWhile rfl (fun _ => rfl) fun _ => h.done hidle _
  | available =>
    simp only [Machine.exec, execAvailable] at he
    split at he <;> cases he <;> exact h.done hidle _
  | rxEnable =>
    simp only [Machine.exec, execRxEnable] at he
    split at he
    case isTrue => cases he; exact h.done hidle _
    case isFalse htx =>
      cases he
      have hduplex : s.cfg.txOnly = false := by simpa using htx
      exact (h.withRx_of_state_eq hduplex (h.rx hduplex).enable rfl).done hidle _
  | rxDisable =>
    simp only [Machine.exec, execRxDisable] at he
    split at he
    case isTrue => cases he; exact h.done hidle _
    case isFalse htx =>
      cases he
      have hduplex : s.cfg.txOnly = false := by simpa using htx
      exact h.spinWhile rfl (fun hp => by cases hp) fun hbusy => (hdisable hduplex hbusy).done hidle _
  | read =>
    obtain ⟨v, rfl⟩ | ⟨v, hduplex, hunread, rfl⟩ := exec_read_next he
    · exact h.done hidle v
    · have hrx := (h.rx hduplex).pop (Config.nRx_le h.legal hduplex) hunread
      exact (h.withRx_of_state_eq hduplex hrx rfl).done hidle v
  | peek =>
    obtain ⟨v, rfl⟩ := exec_peek_next he
    exact h.done hidle v

/-- A TICK, which is taken only while the timer runs. -/
theorem takeTick (h : Inv s) (hrun : s.timerRun = true) {t : State} (ht : takeTick s = .next t) : Inv t := by
  obtain ⟨r, hr, rfl⟩ := takeTick_next.1 ht
  obtain ⟨hf, hf', -⟩ := Config.check_eq_none_iff.1 h.legal
  have hstarted (p : Prop) (hstop : s.timerRun = false) : p := absurd hrun (ne_true_of_eq_false hstop)
  have htx : Inv (s.withTx (txTick s.cfg s.tx)) :=
    h.withTx (h.tx.txTick hf hf') (hstarted _) fun _ => by simpa using h.pin_set hrun
  have hrx : Inv ((s.withTx (txTick s.cfg s.tx)).withRx r) := by
    obtain ⟨-, rfl⟩ | ⟨hduplex, hd, hr⟩ := receivePart_cases hr
    · exact htx
    · exact htx.withRx hduplex ((h.rx hduplex).rxTick h.legal hduplex hd hr) (hstarted _)
  exact hrx.invokeTickHook hrun

theorem clockEdge (h : Inv s) {t : State} (ht : clockEdge s = .next t) : Inv t := by
  obtain ⟨-, rfl⟩ | ⟨hrun, hne, rfl⟩ | ⟨hrun, -, -, htick⟩ := clockEdge_next ht
  · exact h
  · exact h.withDivCnt hrun (Nat.lt_of_le_of_ne h.div_le hne)
  · exact (h.withDivCnt hrun (Nat.zero_le _)).takeTick hrun htick

theorem foregroundStep (h : Inv s) {t : State} (ht : foregroundStep s = .next t) : Inv t := by
  have hfree (hr : s.hookRuns = false) : s.tickRun = false ∧ s.idleRun = false := by
    simpa [State.hookRuns] using hr
  obtain ⟨-, hs⟩ | ⟨-, -, -, hs⟩ | ⟨w, ws, hr, -, -, hs⟩ | ⟨c, p, hr, -, hs⟩ := foregroundStep_cases s <;>
    rw [hs] at ht
  · cases ht; exact h
  · cases ht; exact h
  · obtain ⟨htick, hidle⟩ := hfree hr
    exact (h.withOutEnv s.out { s.env with port := ws }).exec htick hidle ht
  · obtain ⟨htick, hidle⟩ := hfree hr
    exact h.exec htick hidle ht

theorem offerWord (h : Inv s) {w : CmdWord} {t : State} (ht : offerWord w s = .next t) : Inv t := by
  unfold Machine.offerWord at ht
  split at ht <;> cases ht
  exact h.withOutEnv s.out _

theorem react (h : Inv s) {x : Stimulus} {t : State} (ht : react x s = .next t) : Inv t := by
  cases x with
  | clock => exact h.clockEdge ht
  | foreground => exact h.foregroundStep ht
  | hookDone => cases ht; exact h.hookDone
  | offer w => exact h.offerWord ht
  | setLine l => cases ht; exact h.withOutEnv s.out _
  | setExtLow b => cases ht; exact h.withOutEnv s.out _
  | reset => cases ht; exact (inv_resetOf h.legal).withOutEnv none s.env

end Inv

/-- Settles O52: the stimulus acts on the state with the event cleared, and what it answers is counted; each stimulus
keeps the invariant. -/
theorem stepKeepsTheInvariant : Obligations.StepKeepsTheInvariant := by
  intro s t h hs
  obtain ⟨-, u, hu, rfl⟩ := step_next hs
  have hopened : Inv s.opened := h.withOutEnv none _
  exact (hopened.react hu).withOutEnv u.out _

end Sys2Proof.Machine
end

section
/-! SUPPORT. The receive ring is a first-in first-out queue of its unread bytes (20_memory.md R64, R75 to R77). -/

namespace Sys2Proof.Machine

namespace Rx

variable {c : Config} {r : Rx}

theorem full_iff_count (hi : r.inIdx.toNat < c.nRx) (ho : r.outIdx.toNat < c.nRx) (hle : c.nRx ≤ 256) :
    r.full c = true ↔ r.count c = c.nRx - 1 := by
  have hnext := nextSlot_toNat_eq_ite hi hle
  rw [Rx.full, beq_iff_eq, ← BitVec.toNat_inj, hnext, count_eq_ite hi ho]
  split <;> split <;> omega

theorem empty_iff_count (hi : r.inIdx.toNat < c.nRx) (ho : r.outIdx.toNat < c.nRx) :
    r.empty = true ↔ r.count c = 0 := by
  rw [Rx.empty, beq_iff_eq, ← BitVec.toNat_inj, count_eq_ite hi ho]
  split <;> omega

/-- R77: a full ring drops the incoming byte. -/
theorem push_of_full (hfull : r.full c = true) (b : Byte) : r.push c b = .ok r := by
  rw [Rx.push, if_pos hfull]

/-- The `k`-th slot from the one after `rx_out` is the `k + 1`-th from `rx_out`. -/
theorem slot_outIdx_nextSlot (ho : r.outIdx.toNat < c.nRx) (hle : c.nRx ≤ 256) (k : Nat) :
    ((nextSlot c r.outIdx).toNat + k) % c.nRx = (r.outIdx.toNat + (k + 1)) % c.nRx := by
  rw [nextSlot_toNat (Nat.zero_lt_of_lt ho) hle, Nat.mod_add_mod, Nat.add_right_comm, Nat.add_assoc]

/-- A byte stored at `rx_in` of a ring with room becomes the newest unread one. -/
theorem unreadBytes_push (hi : r.inIdx.toNat < c.nRx) (ho : r.outIdx.toNat < c.nRx) (hle : c.nRx ≤ 256)
    (hfull : r.full c = false) (b : Byte) :
    unreadBytes c { r with buf := r.buf.set r.inIdx.toNat b, inIdx := nextSlot c r.inIdx } =
      r.unreadBytes c ++ [some b] := by
  have hold : ∀ k ∈ List.range (r.count c),
      (r.buf.set r.inIdx.toNat b).get ((r.outIdx.toNat + k) % c.nRx) = r.buf.get ((r.outIdx.toNat + k) % c.nRx) :=
    fun k hk => Memory.get_set_other _ _ _ _ (slot_ne_inIdx hi ho (List.mem_range.1 hk))
  have hnew : (r.buf.set r.inIdx.toNat b).get ((r.outIdx.toNat + r.count c) % c.nRx) = some b := by
    rw [slot_count hi ho, Memory.get_set_same]
  unfold unreadBytes
  rw [count_inIdx_nextSlot hi ho hle hfull, List.range_succ, List.map_append, List.map_congr_left hold,
    List.map_singleton, hnew]

/-- Advancing `rx_out` over an unread byte removes the oldest one. -/
theorem unreadBytes_eq_cons (hi : r.inIdx.toNat < c.nRx) (ho : r.outIdx.toNat < c.nRx) (hle : c.nRx ≤ 256)
    (hunread : r.inIdx ≠ r.outIdx) :
    r.unreadBytes c =
      r.buf.get r.outIdx.toNat :: unreadBytes c { r with outIdx := nextSlot c r.outIdx } := by
  unfold unreadBytes
  rw [← count_outIdx_nextSlot hi ho hle hunread, List.range_succ_eq_map, List.map_cons, List.map_map, Nat.add_zero,
    Nat.mod_eq_of_lt ho]
  refine congrArg _ (List.map_congr_left fun k _ => ?_)
  exact congrArg r.buf.get (slot_outIdx_nextSlot ho hle k).symm

end Rx

/-- R47: the slot at `rx_out` of a ring with unread bytes holds one. -/
theorem RxOk.exists_oldest {c : Config} {r : Rx} (h : RxOk c r) (hunread : r.inIdx ≠ r.outIdx) :
    ∃ v, r.buf.get r.outIdx.toNat = some v := by
  have hcount : 0 < r.count c :=
    Nat.pos_of_ne_zero fun h0 =>
      absurd ((Rx.empty_iff_count h.in_lt h.out_lt).2 h0) (by simpa [Rx.empty] using hunread)
  have hslot := h.unread 0 hcount
  rw [Nat.add_zero, Nat.mod_eq_of_lt h.out_lt] at hslot
  exact Option.ne_none_iff_exists'.1 hslot

/-- Settles O29: a push writes the slot after the last unread one, and a pop leaves the slots after the first. -/
theorem receiveRingIsAFifoThatDropsTheNewest : Obligations.ReceiveRingIsAFifoThatDropsTheNewest := by
  intro c r hc hduplex h
  have hi := h.in_lt
  have ho := h.out_lt
  have hle := Config.nRx_le hc hduplex
  have hpos : 0 < c.nRx := Nat.zero_lt_of_lt hi
  refine ⟨Nat.le_sub_one_of_lt (Rx.count_lt hi ho), Rx.full_iff_count hi ho hle, Rx.empty_iff_count hi ho,
    fun b hfull => Rx.push_of_full hfull b, fun b hfull => ?_, fun hempty => ?_⟩
  · have hpush := Rx.push_of_lt r b hi
    rw [hfull] at hpush
    exact ⟨_, hpush, Rx.unreadBytes_push hi ho hle hfull b, nextSlot_toNat hpos hle _, rfl⟩
  · have hunread := Rx.empty_eq_false_iff.1 hempty
    obtain ⟨v, hv⟩ := h.exists_oldest hunread
    refine ⟨v, _, Rx.pop_of_get ho hv, Rx.front_of_get ho hv, ?_, nextSlot_toNat hpos hle _, rfl, rfl⟩
    rw [← hv]
    exact Rx.unreadBytes_eq_cons hi ho hle hunread

end Sys2Proof.Machine
end

section
/-! SUPPORT. The snapshot commands read neither the sequencer nor the last event, and READ answers the byte it removes
(20_memory.md R67). -/

namespace Sys2Proof.Machine

/-- A snapshot command that answers a next state only responds. -/
theorem exec_snapshot_next {i : Instr} {s t : State}
    (hi : i = .isBusy ∨ i = .available ∨ i = .peek ∨ i = .readPin) (h : exec i s = .next t) : ∃ v, t = s.done v := by
  obtain rfl | rfl | rfl | rfl := hi
  case inl => cases h; exact ⟨_, rfl⟩
  case inr.inl =>
    simp only [exec, execAvailable] at h
    split at h <;> cases h <;> exact ⟨_, rfl⟩
  case inr.inr.inl => exact exec_peek_next h
  case inr.inr.inr => cases h; exact ⟨_, rfl⟩

/-- What IS_BUSY, AVAILABLE and PEEK answer does not depend on the command that completed before. -/
theorem exec_snapshot_done {i : Instr} (hi : i = .isBusy ∨ i = .available ∨ i = .peek) (s : State) (v : RspWord) :
    exec i (s.done v) = exec i s := by
  obtain rfl | rfl | rfl := hi <;> rfl

/-- READ of a ring with unread bytes (R147): the answer is the byte at `rx_out`, and `rx_out` moves past it. -/
theorem exec_read_next_of_unread {s t : State} (hduplex : s.cfg.txOnly = false) (hunread : s.rx.inIdx ≠ s.rx.outIdx)
    (h : exec .read s = .next t) :
    ∃ v, s.rx.buf.get s.rx.outIdx.toNat = some v ∧
      t = (s.withRx { s.rx with outIdx := nextSlot s.cfg s.rx.outIdx }).done (rspByte v) := by
  have hempty : s.rx.empty = false := Rx.empty_eq_false_iff.2 hunread
  simp only [exec, execRead, hduplex, hempty, Bool.or_self, Bool.false_eq_true, if_false] at h
  split at h
  case h_1 v r hpop =>
    obtain ⟨hread, rfl⟩ := Rx.pop_ok hpop
    cases h
    exact ⟨v, (memRead_ok hread).2, rfl⟩
  case h_2 => cases h

/-- Settles O46: a snapshot command's next state differs from the present one only in what its repetition does not
read. -/
theorem snapshotCommandsChangeNothing : Obligations.SnapshotCommandsChangeNothing := by
  refine ⟨fun i s t hi h => ?_, fun s t hduplex hunread h => ?_⟩
  · obtain ⟨v, rfl⟩ := exec_snapshot_next hi h
    refine ⟨v, rfl, fun hpin => ?_⟩
    have hsame : exec i (s.done v) = exec i s := exec_snapshot_done (by tauto) s v
    rw [hsame, h]
  · obtain ⟨v, hv, rfl⟩ := exec_read_next_of_unread hduplex hunread h
    exact ⟨v, hv, rfl, rfl⟩

end Sys2Proof.Machine
end

section
/-! SUPPORT. How a byte goes out (41_transmit.md R123, R124): each bit of its frame is on the latch for F ticks. -/

namespace Sys2Proof.Machine

/-! The bits of a frame (30_encoding.md R80). -/

theorem frame_getLsbD_zero (b : Byte) : (frame b).getLsbD 0 = false := by
  simp only [frame, BitVec.getLsbD_append]
  rfl

theorem frame_getLsbD_succ (b : Byte) {k : Nat} (hk : k < 8) : (frame b).getLsbD (k + 1) = b.getLsbD k := by
  simp only [frame, BitVec.getLsbD_append, Nat.add_sub_cancel, if_pos hk]
  rfl

theorem frame_getLsbD_nine (b : Byte) : (frame b).getLsbD 9 = true := by
  simp only [frame, BitVec.getLsbD_append]
  rfl

/-- The stop bit is still to be sent after any of the first nine bits. -/
theorem frame_ushiftRight_ne_zero (b : Byte) {j : Nat} (hj : j ≤ 9) : frame b >>> j ≠ 0 := by
  intro h
  have hstop : (frame b >>> j).getLsbD (9 - j) = true := by
    rw [BitVec.getLsbD_ushiftRight, Nat.add_sub_cancel' hj, frame_getLsbD_nine]
  rw [h] at hstop
  simp at hstop

theorem frame_ushiftRight_ten (b : Byte) : frame b >>> 10 = 0 :=
  BitVec.ushiftRight_eq_zero (Nat.le_refl 10)

variable {c : Config} {t : Tx}

/-! The outcomes of TxTick, and ticks in a row. -/

theorem txTick_of_held (h : 1 < t.sub.toNat) : txTick c t = { t with sub := t.sub - 1 } := by
  rw [txTick_eq, if_pos h]

theorem txTick_of_loaded (h : t.sub.toNat ≤ 1) (hw : t.shift ≠ 0) : txTick c t = t.output c := by
  rw [txTick_eq, if_neg (Nat.not_lt.2 h), Tx.advance, if_neg hw]
  rfl

theorem txTick_of_reload {b : Byte} {bs : List Byte} (h : t.sub.toNat ≤ 1) (hw : t.shift = 0) (hq : t.queue = b :: bs) :
    txTick c t = Tx.output c { t with queue := bs, shift := frame b } := by
  rw [txTick_eq, if_neg (Nat.not_lt.2 h), Tx.advance, if_pos hw]
  simp only [Tx.pop, hq]
  rfl

theorem txTicks_add (m n : Nat) : txTicks c (m + n) t = txTicks c n (txTicks c m t) := by
  induction n with
  | zero => rfl
  | succ n ih => exact congrArg (txTick c) ih

@[simp] theorem txTicks_oe (n : Nat) : (txTicks c n t).oe = t.oe := by
  induction n with
  | zero => rfl
  | succ n ih => exact (txTick_oe c _).trans ih

theorem txTicks_of_held {k : Nat} (hk : k < t.sub.toNat) :
    txTicks c k t = { t with sub := t.sub - BitVec.ofNat 8 k } := by
  induction k with
  | zero => simp [txTicks]
  | succ k ih =>
    rw [txTicks, ih (by omega), txTick_of_held (by bv_omega)]
    congr 1
    bv_omega

/-- The transmitter while bit `j` of the frame of `b` is on the latch, `k` ticks after the one that put it there. -/
def Tx.atBit (c : Config) (t : Tx) (b : Byte) (bs : List Byte) (j k : Nat) : Tx :=
  { t with queue := bs, out := (frame b).getLsbD j, shift := frame b >>> (j + 1), sub := BitVec.ofNat 8 (c.f - k) }

section
variable {b : Byte} {bs : List Byte} (hf : 1 ≤ c.f) (hf' : c.f ≤ 170)
include hf hf'

theorem Tx.atBit_sub_toNat (j k : Nat) : (t.atBit c b bs j k).sub.toNat = c.f - k :=
  byte_toNat_ofNat (by omega)

/-- A bit is held for F ticks. -/
theorem txTicks_atBit {j k : Nat} (hk : k < c.f) : txTicks c k (t.atBit c b bs j 0) = t.atBit c b bs j k := by
  have hsub := Tx.atBit_sub_toNat (t := t) (b := b) (bs := bs) hf hf' j
  rw [txTicks_of_held (by rw [hsub]; omega)]
  unfold Tx.atBit
  congr 1
  bv_omega

/-- The tick after that outputs the next bit, if the frame has one. -/
theorem txTick_atBit_last {j : Nat} (hj : j < 9) :
    txTick c (t.atBit c b bs j (c.f - 1)) = t.atBit c b bs (j + 1) 0 := by
  have hsub := Tx.atBit_sub_toNat (t := t) (b := b) (bs := bs) hf hf' j (c.f - 1)
  rw [txTick_of_loaded (by omega) (frame_ushiftRight_ne_zero b (by omega))]
  unfold Tx.output Tx.atBit
  simp only [BitVec.getLsbD_ushiftRight, BitVec.shiftRight_add]
  rfl

/-- R124: with the frame loaded in the first tick, bit `j` is output in tick `j × F` after it and held for F ticks. -/
theorem txTicks_eq_atBit (hw : t.shift = 0) (hsub : t.sub.toNat ≤ 1) (hq : t.queue = b :: bs) {j k : Nat} (hj : j < 10)
    (hk : k < c.f) : txTicks c (j * c.f + k + 1) t = t.atBit c b bs j k := by
  have hout : txTicks c (j * c.f + 1) t = t.atBit c b bs j 0 := by
    induction j with
    | zero =>
      rw [Nat.zero_mul, txTicks, txTicks, txTick_of_reload hsub hw hq]
      rfl
    | succ j ih =>
      have hsplit : (j + 1) * c.f + 1 = j * c.f + 1 + (c.f - 1) + 1 := by
        rw [Nat.succ_mul]
        omega
      rw [hsplit, txTicks, txTicks_add, ih (by omega), txTicks_atBit hf hf' (by omega),
        txTick_atBit_last hf hf' (by omega)]
  rw [Nat.add_right_comm, txTicks_add, hout, txTicks_atBit hf hf' hk]

/-- The last of the 10 F ticks of a byte leaves the transmitter ready to load the next one. -/
theorem txTicks_byte (hw : t.shift = 0) (hsub : t.sub.toNat ≤ 1) (hq : t.queue = b :: bs) :
    (txTicks c (10 * c.f) t).queue = bs ∧ (txTicks c (10 * c.f) t).shift = 0 ∧
      (txTicks c (10 * c.f) t).sub.toNat ≤ 1 := by
  have hlast : 10 * c.f = 9 * c.f + (c.f - 1) + 1 := by omega
  rw [hlast, txTicks_eq_atBit hf hf' hw hsub hq (by omega) (by omega)]
  refine ⟨rfl, frame_ushiftRight_ten b, ?_⟩
  rw [Tx.atBit_sub_toNat hf hf']
  omega

end

end Sys2Proof.Machine
end

section
/-! SUPPORT. How a byte comes in (42_receive.md R141 to R145): nine and a half bit periods after the tick that saw the
line low, the levels in the middle of the eight data bits have been sampled and the byte is pushed. -/

namespace Sys2Proof.Machine

variable {c : Config} {levels : Nat → Level} {r r' : Rx}

theorem rxTicks_add {m n : Nat} (h : rxTicks c levels m r = .ok r') :
    rxTicks c levels (m + n) r = rxTicks c (fun k => levels (m + k)) n r' := by
  induction n with
  | zero => exact h
  | succ n ih =>
    rw [← Nat.add_assoc, rxTicks, ih]
    rfl

theorem rxTicks_succ {n : Nat} (h : rxTicks c levels (n + 1) r = .ok r') :
    ∃ q, rxTicks c levels n r = .ok q ∧ rxTick c (levels n) q = .ok r' := by
  rw [rxTicks] at h
  split at h
  case h_1 q hq => exact ⟨q, hq, h⟩
  case h_2 => cases h

/-- `n` ticks are `n - 1` and a last one. -/
theorem rxTicks_last {n : Nat} (hn : 1 ≤ n) (h : rxTicks c levels (n - 1) r = .ok r') :
    rxTicks c levels n r = rxTick c (levels (n - 1)) r' := by
  rw [← Nat.sub_add_cancel hn, rxTicks, h]
  rfl

/-! The outcomes of RxTick. -/

theorem rxTick_of_high (hs : r.state = .idle) : rxTick c true r = .ok r := by
  simp [rxTick, hs, rxTickIdle]

theorem rxTick_of_low (hs : r.state = .idle) :
    rxTick c false r = .ok
      { r with state := .inCharacter, bits := 8, mask := 0x01, acc := 0x00, sub := BitVec.ofNat 8 c.rxStartDelay
               busy := true } := by
  simp [rxTick, hs, rxTickIdle, Rx.setBusy]

theorem rxTick_of_counting (hs : r.state ≠ .idle) (hsub : 1 < r.sub.toNat) (level : Level) :
    rxTick c level r = .ok { r with sub := r.sub - 1 } := by
  have hne : r.sub - 1 ≠ 0 := by bv_omega
  cases h : r.state with
  | idle => exact absurd h hs
  | inCharacter => simp only [rxTick, h, rxTickInCharacter, if_neg hne]
  | awaitingStopBit => simp only [rxTick, h, rxTickAwaitingStop, if_neg hne]

theorem rxTick_of_sample (hs : r.state = .inCharacter) (hsub : r.sub = 1) (level : Level) :
    rxTick c level r = .ok
      { r with sub := BitVec.ofNat 8 c.f, acc := if level then r.acc ||| r.mask else r.acc, mask := r.mask <<< 1
               bits := r.bits - 1, state := if r.bits - 1 = 0 then .awaitingStopBit else .inCharacter } := by
  have hzero : r.sub - 1 = 0 := by rw [hsub]; rfl
  have hrule : rxTick c level r = .ok (rxTickInCharacter c level r) := by simp only [rxTick, hs]
  rw [hrule, rxTickInCharacter, if_pos hzero, Rx.sampleBit_endOfBits level { r with sub := BitVec.ofNat 8 c.f } hs]

theorem rxTick_of_stop (hs : r.state = .awaitingStopBit) (hsub : r.sub = 1) (hfull : r.full c = false)
    (hi : r.inIdx.toNat < c.nRx) (level : Level) :
    rxTick c level r = .ok
      { r with sub := 0, busy := false, state := .idle
               buf := r.buf.set r.inIdx.toNat r.acc, inIdx := nextSlot c r.inIdx } := by
  have hzero : r.sub - 1 = 0 := by rw [hsub]; rfl
  have hfull' : Rx.full c { r with sub := 0 } = false := hfull
  have hrule : rxTick c level r = rxTickAwaitingStop c r := by simp only [rxTick, hs]
  rw [hrule, rxTickAwaitingStop, if_pos hzero, Rx.push_of_lt { r with sub := 0 } r.acc hi, hfull']
  rfl

/-! Ticks in a row. -/

theorem rxTicks_of_high {n : Nat} (hs : r.state = .idle) (h : ∀ k < n, levels k = true) :
    rxTicks c levels n r = .ok r := by
  induction n with
  | zero => rfl
  | succ n ih =>
    rw [rxTicks, ih fun k hk => h k (by omega), h n (by omega)]
    exact rxTick_of_high hs

theorem rxTicks_of_counting {n : Nat} (hs : r.state ≠ .idle) (hn : n < r.sub.toNat) :
    rxTicks c levels n r = .ok { r with sub := r.sub - BitVec.ofNat 8 n } := by
  induction n with
  | zero => simp [rxTicks]
  | succ n ih =>
    rw [rxTicks, ih (by omega)]
    refine (rxTick_of_counting (r := { r with sub := r.sub - BitVec.ofNat 8 n }) hs (by bv_omega) _).trans ?_
    congr 2
    bv_omega

/-- A counter loaded with F has come down to 1 after F - 1 ticks. -/
theorem rxTicks_to_one (hf : 1 ≤ c.f) (hf' : c.f ≤ 170) (hs : r.state ≠ .idle) (hsub : r.sub = BitVec.ofNat 8 c.f) :
    rxTicks c levels (c.f - 1) r = .ok { r with sub := 1 } := by
  have hF : r.sub.toNat = c.f := by rw [hsub]; exact byte_toNat_ofNat (by omega)
  rw [rxTicks_of_counting hs (by omega)]
  congr 2
  bv_omega

/-! The data bits. -/

/-- The byte of the first `i` samples, the `k`-th taken in tick `RX_START_DELAY + k × F` after the start (R145). -/
def sampledByte (c : Config) (levels : Nat → Level) : Nat → Byte
  | 0 => 0
  | i + 1 =>
    if levels (c.rxStartDelay + i * c.f) then sampledByte c levels i ||| 1#8 <<< i else sampledByte c levels i

theorem sampledByte_getLsbD {i k : Nat} (hk : k < 8) :
    (sampledByte c levels i).getLsbD k = (decide (k < i) && levels (c.rxStartDelay + k * c.f)) := by
  induction i with
  | zero => simp [sampledByte]
  | succ i ih =>
    have hmask : (1#8 <<< i).getLsbD k = decide (i = k) := by
      rw [← BitVec.twoPow_eq, BitVec.getLsbD_twoPow]
      simp only [Bool.and_eq_right_iff_imp, decide_eq_true_eq]
      omega
    unfold sampledByte
    obtain rfl | hne := eq_or_ne i k
    · cases hl : levels (c.rxStartDelay + i * c.f) <;> simp [ih, hmask]
    · have hlt : k < i + 1 ↔ k < i := by omega
      split <;> simp [ih, hmask, hne, hlt]

/-- The receiver that has sampled `i` data bits and waits F ticks for the next, or for the end of the stop window. -/
def Rx.afterSamples (c : Config) (levels : Nat → Level) (r : Rx) (i : Nat) : Rx :=
  { r with state := if i < 8 then .inCharacter else .awaitingStopBit, bits := 8#4 - BitVec.ofNat 4 i, mask := 1#8 <<< i
           acc := sampledByte c levels i, sub := BitVec.ofNat 8 c.f, busy := true }

/-- The receiver after a character: idle again, with byte `b` in the slot that `rx_in` has moved past (R143, R77). -/
def Rx.received (c : Config) (r : Rx) (b : Byte) : Rx :=
  { r with state := .idle, bits := 0, mask := 0, acc := b, sub := 0, busy := false
           buf := r.buf.set r.inIdx.toNat b, inIdx := nextSlot c r.inIdx }

section
variable (hf : 1 ≤ c.f) (hf' : c.f ≤ 170)
include hf hf'

/-- The wait for the first sample is half a bit period and then a whole one. -/
theorem rxTicks_afterStart (hs : r.state = .idle) (hlow : levels 0 = false) :
    rxTicks c levels (1 + c.f / 2) r = .ok (r.afterSamples c levels 0) := by
  have hdelay : (BitVec.ofNat 8 c.rxStartDelay).toNat = c.f + c.f / 2 :=
    byte_toNat_ofNat (by unfold Config.rxStartDelay; omega)
  have hstart : rxTicks c levels 1 r = .ok
      { r with state := .inCharacter, bits := 8, mask := 0x01, acc := 0x00, sub := BitVec.ofNat 8 c.rxStartDelay
               busy := true } := by
    rw [rxTicks, rxTicks, hlow]
    exact rxTick_of_low hs
  rw [rxTicks_add hstart, rxTicks_of_counting (by simp) (by dsimp only; omega)]
  unfold Rx.afterSamples
  congr 2
  bv_omega

/-- F ticks take the next sample (R142). -/
theorem rxTicks_nextSample {i : Nat} (hi : i < 8) (levels' : Nat → Level)
    (hlevel : levels' (c.f - 1) = levels (c.rxStartDelay + i * c.f)) :
    rxTicks c levels' c.f (r.afterSamples c levels i) = .ok (r.afterSamples c levels (i + 1)) := by
  have hstate : (r.afterSamples c levels i).state = .inCharacter := if_pos hi
  have hone := rxTicks_to_one (levels := levels') hf hf' (r := r.afterSamples c levels i) (by simp [hstate]) rfl
  have hbits : 8#4 - BitVec.ofNat 4 i - 1 = 8#4 - BitVec.ofNat 4 (i + 1) := by bv_omega
  have hlast : 8#4 - BitVec.ofNat 4 (i + 1) = 0 ↔ ¬i + 1 < 8 := by bv_omega
  rw [rxTicks_last hf hone, rxTick_of_sample (r := { r.afterSamples c levels i with sub := 1 }) hstate rfl, hlevel]
  simp only [Rx.afterSamples, hbits, hlast, ite_not, ← BitVec.shiftLeft_add]
  rfl

/-- R145: after `i` samples. -/
theorem rxTicks_eq_afterSamples (hs : r.state = .idle) (hlow : levels 0 = false) {i : Nat} (hi : i ≤ 8) :
    rxTicks c levels (1 + c.f / 2 + i * c.f) r = .ok (r.afterSamples c levels i) := by
  induction i with
  | zero => rw [Nat.zero_mul, Nat.add_zero, rxTicks_afterStart hf hf' hs hlow]
  | succ i ih =>
    rw [Nat.succ_mul, ← Nat.add_assoc, rxTicks_add (ih (by omega))]
    refine rxTicks_nextSample hf hf' hi _ (congrArg levels ?_)
    unfold Config.rxStartDelay
    omega

/-- R145, R77: the tick that ends the stop window pushes the byte. -/
theorem rxTicks_received (hs : r.state = .idle) (hlow : levels 0 = false) (hfull : r.full c = false)
    (hi : r.inIdx.toNat < c.nRx) :
    rxTicks c levels (c.rxStartDelay + 8 * c.f + 1) r = .ok (r.received c (sampledByte c levels 8)) := by
  have hsplit : c.rxStartDelay + 8 * c.f + 1 = 1 + c.f / 2 + 8 * c.f + c.f := by
    unfold Config.rxStartDelay
    omega
  have hone := rxTicks_to_one (levels := fun k => levels (1 + c.f / 2 + 8 * c.f + k)) hf hf'
    (r := r.afterSamples c levels 8) (by simp [Rx.afterSamples]) rfl
  rw [hsplit, rxTicks_add (rxTicks_eq_afterSamples hf hf' hs hlow (Nat.le_refl 8)), rxTicks_last hf hone]
  exact rxTick_of_stop (r := { r.afterSamples c levels 8 with sub := 1 }) rfl rfl hfull hi _

end

end Sys2Proof.Machine
end

section
/-! SUPPORT. Over a looped-back line the receiver samples what the transmitter drives, so each byte sent is received
(30_encoding.md R83, 95_test_vectors.md V6). -/

namespace Sys2Proof.Machine

/-- The levels a looped-back receiver samples: the latch after the transmit part of each tick (D33). -/
def Tx.levels (c : Config) (t : Tx) (n : Nat) : Level := (txTicks c (n + 1) t).out

section
variable {c : Config} {t : Tx} {b : Byte} {bs : List Byte} (hf : 1 ≤ c.f) (hf' : c.f ≤ 170)
  (hw : t.shift = 0) (hsub : t.sub.toNat ≤ 1) (hq : t.queue = b :: bs)
include hf hf' hw hsub hq

theorem Tx.levels_eq {j k : Nat} (hj : j < 10) (hk : k < c.f) : t.levels c (j * c.f + k) = (frame b).getLsbD j := by
  rw [Tx.levels, txTicks_eq_atBit hf hf' hw hsub hq hj hk]
  rfl

/-- R124: the start bit. -/
theorem Tx.levels_zero : t.levels c 0 = false := by
  rw [← frame_getLsbD_zero b, ← Tx.levels_eq hf hf' hw hsub hq (by omega : 0 < 10) (by omega : 0 < c.f), Nat.zero_mul]

/-- R124: the stop bit. -/
theorem Tx.levels_stop {n : Nat} (hlo : 9 * c.f ≤ n) (hhi : n < 10 * c.f) : t.levels c n = true := by
  rw [← frame_getLsbD_nine b, ← Tx.levels_eq hf hf' hw hsub hq (by omega : 9 < 10) (by omega : n - 9 * c.f < c.f),
    Nat.add_sub_cancel' hlo]

/-- R83: the samples of a looped-back receiver are taken inside the data bits they stand for. -/
theorem Tx.sampledByte_levels : sampledByte c (t.levels c) 8 = b := by
  refine BitVec.eq_of_getLsbD_eq fun k hk => ?_
  have htick : c.rxStartDelay + k * c.f = (k + 1) * c.f + c.f / 2 := by
    rw [Nat.succ_mul]
    unfold Config.rxStartDelay
    omega
  rw [sampledByte_getLsbD hk, htick, Tx.levels_eq hf hf' hw hsub hq (by omega) (by omega), frame_getLsbD_succ b hk]
  simp [hk]

/-- The byte is in the ring when its 10 F ticks are over: the line has been high since the push. -/
theorem rxTicks_byte {r : Rx} (hs : r.state = .idle) (hfull : r.full c = false) (hi : r.inIdx.toNat < c.nRx) :
    rxTicks c (t.levels c) (10 * c.f) r = .ok (r.received c b) := by
  have hpush : 9 * c.f ≤ c.rxStartDelay + 8 * c.f + 1 ∧ c.rxStartDelay + 8 * c.f + 1 ≤ 10 * c.f := by
    unfold Config.rxStartDelay
    omega
  obtain ⟨hlo, hhi⟩ := hpush
  have hreceived := rxTicks_received hf hf' hs (Tx.levels_zero hf hf' hw hsub hq) hfull hi
  rw [Tx.sampledByte_levels hf hf' hw hsub hq] at hreceived
  rw [← Nat.add_sub_cancel' hhi, rxTicks_add hreceived]
  exact rxTicks_of_high rfl fun k hk => Tx.levels_stop hf hf' hw hsub hq (by omega) (by omega)

end

/-- The receive line is wired to a driven pad that nothing pulls, and an enabled receiver listens. -/
structure LoopedBack (s : State) : Prop where
  duplex : s.cfg.txOnly = false
  line : s.env.line = .loopback
  extLow : s.env.extLow = false
  driven : s.tx.oe = true
  enabled : s.rx.disabled = false

/-- A TICK over a looped-back line: the receiver samples what the transmit part has just driven (R104, D33). -/
theorem LoopedBack.takeTick {s : State} (h : LoopedBack s) {r : Rx}
    (hr : rxTick s.cfg (txTick s.cfg s.tx).out s.rx = .ok r) :
    takeTick s = .next ((s.withTx (txTick s.cfg s.tx)).withRx r).invokeTickHook := by
  have hlevel : (s.withTx (txTick s.cfg s.tx)).sampleRx = (txTick s.cfg s.tx).out := by
    simp [State.sampleRx, State.pad, h.line, h.extLow, h.driven]
  refine takeTick_next.2 ⟨r, ?_, rfl⟩
  simp [State.receivePart, h.duplex, h.enabled, hlevel, hr]

/-- TICKs over a looped-back line are the ticks of the transmitter, and those of the receiver with its levels. -/
theorem LoopedBack.takeTicks {s : State} (h : LoopedBack s) {n : Nat} {r : Rx}
    (hr : rxTicks s.cfg (s.tx.levels s.cfg) n s.rx = .ok r) :
    ∃ t, takeTicks n s = .next t ∧ LoopedBack t ∧ t.cfg = s.cfg ∧ t.tx = txTicks s.cfg n s.tx ∧ t.rx = r := by
  induction n generalizing r with
  | zero =>
    cases hr
    exact ⟨s, rfl, h, rfl, rfl, rfl⟩
  | succ n ih =>
    obtain ⟨r', hr', hlast⟩ := rxTicks_succ hr
    obtain ⟨t, ht, hloop, hcfg, htx, hrx⟩ := ih hr'
    have htick : rxTick t.cfg (txTick t.cfg t.tx).out t.rx = .ok r := by
      rw [hcfg, htx, hrx]
      exact hlast
    refine ⟨_, by rw [Machine.takeTicks, ht]; exact hloop.takeTick htick, ?_, ?_, ?_, ?_⟩
    · exact
        { duplex := by simpa using hloop.duplex
          line := by simpa using hloop.line
          extLow := by simpa using hloop.extLow
          driven := by simpa using hloop.driven
          enabled := by simpa [(rxTick_frame htick).1] using hloop.enabled }
    · simpa using hcfg
    · simp [htx, hcfg, txTicks]
    · simp

theorem takeTicks_add {s u : State} {m : Nat} (h : takeTicks m s = .next u) (n : Nat) :
    takeTicks (m + n) s = takeTicks n u := by
  induction n with
  | zero => exact h
  | succ n ih =>
    rw [← Nat.add_assoc, takeTicks, ih]
    rfl

/-- A looped-back state of a legal instance in which both engines are between two bytes. -/
structure BetweenBytes (s : State) : Prop extends LoopedBack s where
  legal : s.cfg.check = none
  shift : s.tx.shift = 0
  sub_le : s.tx.sub.toNat ≤ 1
  idle : s.rx.state = .idle
  in_lt : s.rx.inIdx.toNat < s.cfg.nRx
  out_lt : s.rx.outIdx.toNat < s.cfg.nRx

/-- 10 F TICKs bring the first queued byte into a ring that has room for it, and both engines between two bytes. -/
theorem BetweenBytes.takeTicks_byte {s : State} (h : BetweenBytes s) {b : Byte} {bs : List Byte}
    (hq : s.tx.queue = b :: bs) (hfull : s.rx.full s.cfg = false) :
    ∃ t, takeTicks (10 * s.cfg.f) s = .next t ∧ BetweenBytes t ∧ t.cfg = s.cfg ∧ t.tx.queue = bs ∧
      t.rx = s.rx.received s.cfg b := by
  obtain ⟨hf, hf', -⟩ := Config.check_eq_none_iff.1 h.legal
  have hf1 : 1 ≤ s.cfg.f := by omega
  have hnext := nextSlot_toNat_lt h.in_lt (Config.nRx_le h.legal h.duplex)
  obtain ⟨hqueue, hshift, hsub⟩ := txTicks_byte hf1 hf' h.shift h.sub_le hq
  obtain ⟨t, ht, hloop, hcfg, htx, hrx⟩ :=
    h.toLoopedBack.takeTicks (rxTicks_byte hf1 hf' h.shift h.sub_le hq h.idle hfull h.in_lt)
  rw [← htx] at hqueue hshift hsub
  refine ⟨t, ht, { hloop with legal := ?_, shift := hshift, sub_le := hsub, idle := ?_, in_lt := ?_, out_lt := ?_ },
    hcfg, hqueue, hrx⟩
  · rw [hcfg, h.legal]
  · rw [hrx]; rfl
  · rw [hrx, hcfg]; exact hnext
  · rw [hrx, hcfg]; exact h.out_lt

/-- 10 F TICKs per byte bring all queued bytes into a ring that has room for them, oldest first. -/
theorem BetweenBytes.takeTicks_queue {s : State} (h : BetweenBytes s) {q : List Byte} (hq : s.tx.queue = q)
    (hroom : s.rx.count s.cfg + q.length ≤ s.cfg.nRx - 1) :
    ∃ t, takeTicks (10 * s.cfg.f * q.length) s = .next t ∧ t.tx.queue = [] ∧
      t.rx.unreadBytes s.cfg = s.rx.unreadBytes s.cfg ++ q.map some := by
  induction q generalizing s with
  | nil => exact ⟨s, rfl, hq, (List.append_nil _).symm⟩
  | cons b bs ih =>
    have hle := Config.nRx_le h.legal h.duplex
    rw [List.length_cons] at hroom
    have hfull : s.rx.full s.cfg = false := by
      have hnot := (Rx.full_iff_count h.in_lt h.out_lt hle).not.2 (by omega)
      simpa using hnot
    obtain ⟨u, hu, hready, hcfg, huq, hrx⟩ := h.takeTicks_byte hq hfull
    have hcount : u.rx.count s.cfg = s.rx.count s.cfg + 1 := by
      rw [hrx]
      exact Rx.count_inIdx_nextSlot h.in_lt h.out_lt hle hfull (s.rx.buf.set s.rx.inIdx.toNat b)
    have hbytes : u.rx.unreadBytes s.cfg = s.rx.unreadBytes s.cfg ++ [some b] := by
      rw [hrx]
      exact Rx.unreadBytes_push h.in_lt h.out_lt hle hfull b
    obtain ⟨t, ht, hempty, hall⟩ := ih hready huq (by rw [hcfg, hcount]; omega)
    rw [hcfg] at ht hall
    refine ⟨t, ?_, hempty, ?_⟩
    · rw [List.length_cons, Nat.mul_succ, Nat.add_comm, takeTicks_add hu, ht]
    · rw [hall, hbytes, List.append_assoc, List.map_cons, List.singleton_append]

/-- Settles O55, by induction on the queue: each byte takes both engines from between two bytes to there again. -/
theorem loopbackDeliversTheSequenceInOrder : Obligations.LoopbackDeliversTheSequenceInOrder := by
  intro s h hduplex hline hext hoe hshift hsub hidle hen hroom
  have hrx := h.rx hduplex
  have hready : BetweenBytes s :=
    { duplex := hduplex, line := hline, extLow := hext, driven := hoe, enabled := hen, legal := h.legal
      shift := hshift, sub_le := hsub, idle := hidle, in_lt := hrx.in_lt, out_lt := hrx.out_lt }
  exact hready.takeTicks_queue rfl hroom

end Sys2Proof.Machine
end

section
/-! SUPPORT. Decode and encode as a law of the two fields of a command word: decoding keeps the opcode, and the operand
where it is used (30_encoding.md R84, R86, R88). -/

namespace Sys2Proof

/-! The fields of a word written as opcode and operand. -/

@[simp] theorem opcodeField_append (op : BitVec 4) (d : Byte) : opcodeField (op ++ d) = op :=
  BitVec.extractLsb'_append_eq_left

@[simp] theorem operandField_append (op : BitVec 4) (d : Byte) : operandField (op ++ d) = d :=
  BitVec.extractLsb'_append_eq_right

theorem opcodeField_encode (i : Instr) : opcodeField (encode i) = i.opcode := opcodeField_append _ _

theorem operandField_encode (i : Instr) : operandField (encode i) = i.operand := operandField_append _ _

/-- R84: the opcode read from its four bits, the most significant first. -/
theorem opcodeField_eq_bits (w : CmdWord) :
    opcodeField w = BitVec.ofBool (w.getLsbD 11) ++ BitVec.ofBool (w.getLsbD 10) ++ BitVec.ofBool (w.getLsbD 9) ++
      BitVec.ofBool (w.getLsbD 8) := by
  refine BitVec.eq_of_getLsbD_eq fun k hk => ?_
  simp only [opcodeField, BitVec.getLsbD_extractLsb', BitVec.getLsbD_append]
  interval_cases k <;> simp

/-! Decoding, field by field. -/

/-- R86: each row of the opcode map stands at its opcode. -/
theorem opcode_decode (w : CmdWord) : (decode w).opcode = opcodeField w := by
  rw [opcodeField_eq_bits]
  unfold decode
  split <;> simp only [*] <;> rfl

/-- R88: a command that does not use the operand byte has 0x00 there. -/
theorem Instr.operand_of_unused {i : Instr} (h : i.usesOperand = false) : i.operand = 0 := by
  cases i with
  | enqueue d | setTickHook d | setIdleHook d => cases h
  | _ => rfl

/-- R86: the three commands that use the operand byte, by opcode. -/
theorem Instr.usesOperand_iff (i : Instr) :
    i.usesOperand = true ↔ i.opcode = 0x2#4 ∨ i.opcode = 0xD#4 ∨ i.opcode = 0xE#4 := by
  cases i <;> simp [Instr.usesOperand, Instr.opcode]

/-- R88: decoding keeps the operand byte where it is used and drops it elsewhere. -/
theorem operand_decode (w : CmdWord) :
    (decode w).operand = if (decode w).usesOperand then operandField w else 0x00 := by
  unfold decode
  split <;> rfl

theorem decode_encode (i : Instr) : decode (encode i) = i := by
  cases i with
  | enqueue d | setTickHook d | setIdleHook d =>
    simp only [encode, decode, Instr.opcode, Instr.operand, operandField_append, BitVec.getLsbD_append]
    rfl
  | _ => rfl

/-- Opcode and operand determine the command: they make its canonical word. -/
theorem Instr.eq_of_fields {i j : Instr} (hop : i.opcode = j.opcode) (hd : i.operand = j.operand) : i = j := by
  rw [← decode_encode i, ← decode_encode j, encode, encode, hop, hd]

/-- Settles O1: each field of the word is a field of the command. -/
theorem decodeEncodeRoundTrip : Obligations.DecodeEncodeRoundTrip := by
  refine ⟨fun i _ => ⟨decode_encode i, opcodeField_encode i, operandField_encode i⟩, fun w => ⟨?_, ?_⟩⟩
  · rw [opcodeField_encode, opcode_decode]
  · rw [operandField_encode, operand_decode]

/-- R88: a word with any other opcode than those three decodes to a command with operand byte 0x00. -/
theorem operand_decode_of_unused {w : CmdWord} (henq : opcodeField w ≠ 0x2#4) (htick : opcodeField w ≠ 0xD#4)
    (hidle : opcodeField w ≠ 0xE#4) : (decode w).operand = 0 := by
  refine Instr.operand_of_unused (Bool.eq_false_of_not_eq_true fun hused => ?_)
  rw [Instr.usesOperand_iff, opcode_decode] at hused
  tauto

/-- R88: with no operand used, the opcode alone determines the command. -/
theorem decode_eq_of_unused {w w' : CmdWord} (hop : opcodeField w = opcodeField w') (henq : opcodeField w ≠ 0x2#4)
    (htick : opcodeField w ≠ 0xD#4) (hidle : opcodeField w ≠ 0xE#4) : decode w = decode w' := by
  refine Instr.eq_of_fields ?_ ?_
  · rw [opcode_decode, opcode_decode, hop]
  · rw [operand_decode_of_unused henq htick hidle,
      operand_decode_of_unused (hop ▸ henq) (hop ▸ htick) (hop ▸ hidle)]

/-- Settles O2: equal opcodes give equal commands, so also equal effects. -/
theorem unusedOperandBitsAreIgnored : Obligations.UnusedOperandBitsAreIgnored := by
  intro w w' hop henq htick hidle
  have hsame : decode w = decode w' := decode_eq_of_unused hop henq htick hidle
  refine ⟨hsame, fun s => congrArg (fun i => Machine.exec i s) hsame, ?_⟩
  rw [operandField_encode, operand_decode_of_unused henq htick hidle]

/-- Settles O3: fixed words, read off the opcode map. -/
theorem opcodeMapWordsDecode : Obligations.OpcodeMapWordsDecode := by
  unfold Obligations.OpcodeMapWordsDecode
  decide

/-- R87: opcode 0xF is the reserved row whatever its operand bits. -/
theorem decode_eq_reservedF {w : CmdWord} (h : opcodeField w = 0xF#4) : decode w = .reservedF :=
  decode_eq_of_unused (w' := 0xF00#12) h (by simp [h]) (by simp [h]) (by simp [h])

/-- Settles O45: the reserved row only responds. -/
theorem reservedOpcodeDoesNothing : Obligations.ReservedOpcodeDoesNothing := by
  intro w s h
  rw [decode_eq_reservedF h]
  rfl

end Sys2Proof
end

section
/-! SUPPORT. The frame of a byte as a number: the stop bit is worth 0x200, the byte stands one place to the left
(30_encoding.md R80, R81). -/

namespace Sys2Proof.Machine

theorem frame_toNat (b : Byte) : (frame b).toNat = 0x200 + 2 * b.toNat := by
  have hb : b.toNat < 2 ^ 8 := b.isLt
  have hstop : (1#1 ++ b).toNat = 0x100 + b.toNat := by
    rw [BitVec.toNat_append]
    exact (Nat.two_pow_add_eq_or_of_lt hb 1).symm
  rw [frame, BitVec.toNat_append, hstop, Nat.shiftLeft_eq, BitVec.toNat_ofNat, Nat.zero_mod, Nat.or_zero]
  omega

/-- R81: the formula of the frame. -/
theorem frame_eq_or (b : Byte) : frame b = (0x200#10 ||| (b.zeroExtend 10 <<< 1)) := by
  have hb : b.toNat < 2 ^ 8 := b.isLt
  have hdata : (b.zeroExtend 10 <<< 1).toNat = 2 * b.toNat := by
    rw [BitVec.toNat_shiftLeft, BitVec.toNat_setWidth, Nat.shiftLeft_eq]
    omega
  refine BitVec.eq_of_toNat_eq ?_
  rw [frame_toNat, BitVec.toNat_or, hdata]
  exact Nat.two_pow_add_eq_or_of_lt (by omega : 2 * b.toNat < 2 ^ 9) 1

/-- Settles O4: the bits are those of the concatenation, and the range is that of a byte. -/
theorem frameHoldsStartDataStop : Obligations.FrameHoldsStartDataStop := by
  refine ⟨fun b => ?_, rfl, rfl, rfl, rfl⟩
  have hb : b.toNat < 2 ^ 8 := b.isLt
  have hnat := frame_toNat b
  refine ⟨frame_getLsbD_zero b, frame_getLsbD_nine b, fun k hk => frame_getLsbD_succ b hk, frame_eq_or b, ?_, ?_, ?_,
    frame_ne_zero b⟩ <;> omega

end Sys2Proof.Machine
end

section
/-! SUPPORT. What the sequencer takes from the port: a foreground step with no hook body running is an evaluation, and
no evaluation touches the environment (60_exceptions.md R218, 30_encoding.md R84). -/

namespace Sys2Proof.Machine

variable {s : State}

/-! A step under a listed stimulus. -/

theorem State.stimulus_of_script {x : Stimulus} {rest : List Stimulus} (h : s.env.script = x :: rest) :
    s.stimulus = x := by
  simp [State.stimulus, h]

theorem State.opened_of_script {x : Stimulus} {rest : List Stimulus} (h : s.env.script = x :: rest) :
    s.opened = { s with out := none, env := { s.env with script := rest } } := by
  simp [State.opened, h]

theorem step_of_stimulus {x : Stimulus} (hc : s.cfg.check = none) (hx : s.stimulus = x) :
    step s = countStep (react x s.opened) := by
  rw [step_of_legal hc, hx]

/-! The foreground step. -/

theorem foregroundStep_of_ready {w : CmdWord} {ws : List CmdWord} (htick : s.tickRun = false)
    (hidle : s.idleRun = false) (hfg : s.fg = .ready) (hport : s.env.port = w :: ws) :
    foregroundStep s = exec (decode w) (s.withPort ws) := by
  simp [foregroundStep, State.hookRuns, htick, hidle, hfg, hport]

theorem foregroundStep_of_spin {c : Instr} {p : Phase} (htick : s.tickRun = false) (hidle : s.idleRun = false)
    (hfg : s.fg = .spin c p) : foregroundStep s = exec c s := by
  simp [foregroundStep, State.hookRuns, htick, hidle, hfg]

/-- Settles O10: the two evaluations of the sequencer. -/
theorem foregroundStepRunsTheCommand : Obligations.ForegroundStepRunsTheCommand := by
  intro s rest hc hscript htick hidle
  have hstep : step s = countStep (foregroundStep s.opened) :=
    step_of_stimulus hc (State.stimulus_of_script hscript)
  rw [← State.opened_of_script hscript, hstep]
  refine ⟨fun w ws hfg hport => ?_, fun c p hfg => ?_⟩
  · rw [foregroundStep_of_ready (s := s.opened) htick hidle hfg hport, State.withPort, State.opened_of_script hscript]
  · rw [foregroundStep_of_spin (s := s.opened) htick hidle hfg]

/-- Twelve bits of the table's number are the command word (log 16). -/
theorem decodeTableWord_of_lt {nbits w : Nat} (hbits : 12 ≤ nbits) (hw : w < 4096) :
    w % 2 ^ nbits = w ∧ decodeTableWord nbits w = some (decode (BitVec.ofNat 12 w)) := by
  have hmod : w % 2 ^ nbits = w :=
    Nat.mod_eq_of_lt (hw.trans_le (Nat.pow_le_pow_right Nat.two_pos hbits))
  simp [decodeTableWord, decodeNat, hmod, hw]

/-- Settles O11: the placed word and its foreground step are what O10 speaks of. -/
theorem withFetchWordRunsTheDecodedCommand : Obligations.WithFetchWordRunsTheDecodedCommand := by
  intro s nbits w hc hbits hw
  obtain ⟨hmod, hdecode⟩ := decodeTableWord_of_lt hbits hw
  refine ⟨_, hdecode, rfl, ?_⟩
  rw [State.withFetchWord, hmod]
  obtain ⟨haccept, -⟩ :=
    foregroundStepRunsTheCommand (s.withCommand (BitVec.ofNat 12 w)) s.env.script hc rfl rfl rfl
  exact haccept _ _ rfl rfl

/-! The environment is the caller's. -/

/-- The waits on `tx_busy` and `rx_busy`, which spin while the flag `b` is 1 and then go on to `u`. -/
theorem spinWhile_env {b : Bool} {i : Instr} {p : Phase} {u : State} (hu : u.env = s.env) :
    (if b then s.spin i p else u).env = s.env := by
  split
  · rw [State.spin_eq_spun, State.spun_env]
  · exact hu

/-- No evaluation of a command changes the environment's data. -/
theorem exec_env {i : Instr} {t : State} (h : exec i s = .next t) : t.env = s.env := by
  cases i with
  | flush | senseBegin => cases h; exact spinWhile_env rfl
  | enqueue d =>
    simp only [exec, execEnqueue, State.spin_eq_spun] at h
    split at h <;> cases h <;> rfl
  | endCmd =>
    simp only [exec, execEnd] at h
    split at h <;> cases h <;> exact spinWhile_env rfl
  | rxDisable =>
    simp only [exec, execRxDisable] at h
    split at h <;> cases h
    · rfl
    · exact spinWhile_env rfl
  | available =>
    simp only [exec, execAvailable] at h
    split at h <;> cases h <;> rfl
  | rxEnable =>
    simp only [exec, execRxEnable] at h
    split at h <;> cases h <;> rfl
  | read => obtain ⟨v, rfl⟩ | ⟨v, -, -, rfl⟩ := exec_read_next h <;> rfl
  | peek => obtain ⟨v, rfl⟩ := exec_peek_next h; rfl
  | _ => cases h; rfl

/-- While a command spins a foreground step leaves the environment, the port among it, alone. -/
theorem foregroundStep_env_of_spin {c : Instr} {p : Phase} {t : State} (hfg : s.fg = .spin c p)
    (h : foregroundStep s = .next t) : t.env = s.env := by
  obtain ⟨-, hs⟩ | ⟨-, -, -, hs⟩ | ⟨_, _, -, hready, -, -⟩ | ⟨_, _, -, -, hs⟩ := foregroundStep_cases s
  · rw [hs] at h; cases h; rfl
  · rw [hs] at h; cases h; rfl
  · rw [hfg] at hready; cases hready
  · rw [hs] at h; exact exec_env h

theorem offerWord_of_accepted {w : CmdWord} (h : s.fg ≠ .ready ∨ (s.tickRun = false ∧ s.idleRun = false)) :
    offerWord w s = .next (s.withPort (s.env.port ++ [w])) := by
  have hnot : ¬(s.fg = .ready ∧ s.hookRuns = true) := by
    rintro ⟨hready, hrun⟩
    obtain hfg | ⟨htick, hidle⟩ := h
    · exact hfg hready
    · simp [State.hookRuns, htick, hidle] at hrun
  rw [offerWord, if_neg hnot]

/-- Settles O13: an evaluation leaves the port alone, and the other three stimuli change one datum each. -/
theorem portHoldsCommandsOffWhileSpinning : Obligations.PortHoldsCommandsOffWhileSpinning := by
  intro s hc
  refine ⟨fun c p t hfg hx hs => ?_, fun w hx hfree => ?_, fun l hx => ?_, fun b hx => ?_⟩
  · obtain ⟨-, u, hu, rfl⟩ := step_next hs
    rw [hx] at hu
    have henv : u.env = s.opened.env := foregroundStep_env_of_spin hfg hu
    rw [State.counted_port, henv, State.opened_port]
  · have hoffer := offerWord_of_accepted (s := s.opened) (w := w) hfree
    rw [step_of_stimulus hc hx, react, hoffer]
    rfl
  · rw [step_of_stimulus hc hx]
    rfl
  · rw [step_of_stimulus hc hx]
    rfl

end Sys2Proof.Machine
end

section
/-! SUPPORT. One byte over a looped-back line, as far as its push into the ring (30_encoding.md R83, 42_receive.md
R145). -/

namespace Sys2Proof.Machine

section
variable {c : Config} {t : Tx} {b : Byte} {bs : List Byte} (hf : 1 ≤ c.f) (hf' : c.f ≤ 170)
  (hw : t.shift = 0) (hsub : t.sub.toNat ≤ 1) (hq : t.queue = b :: bs)
include hf hf' hw hsub hq

/-- The push falls in the stop bit, and the byte pushed is the one sent. -/
theorem rxTicks_pushed {r : Rx} (hs : r.state = .idle) (hfull : r.full c = false) (hi : r.inIdx.toNat < c.nRx) :
    rxTicks c (t.levels c) (c.rxStartDelay + 8 * c.f + 1) r = .ok (r.received c b) := by
  rw [rxTicks_received hf hf' hs (Tx.levels_zero hf hf' hw hsub hq) hfull hi, Tx.sampledByte_levels hf hf' hw hsub hq]

/-- At the push the transmitter holds the stop bit and has the rest of the queue before it. -/
theorem txTicks_pushed_queue : (txTicks c (c.rxStartDelay + 8 * c.f + 1) t).queue = bs := by
  have htick : c.rxStartDelay + 8 * c.f + 1 = 9 * c.f + c.f / 2 + 1 := by
    unfold Config.rxStartDelay
    omega
  rw [htick, txTicks_eq_atBit hf hf' hw hsub hq (by omega) (by omega)]
  rfl

end

/-- Settles O54: the TICKs are the two engines' own ticks, and both are known at the push. -/
theorem loopbackRoundTripYieldsTheByte : Obligations.LoopbackRoundTripYieldsTheByte := by
  intro s b bs hc hduplex hline hext hoe hq hshift hsub hidle hen hi hfull
  obtain ⟨hf, hf', -⟩ := Config.check_eq_none_iff.1 hc
  have hf1 : 1 ≤ s.cfg.f := by omega
  have hloop : LoopedBack s :=
    { duplex := hduplex, line := hline, extLow := hext, driven := hoe, enabled := hen }
  obtain ⟨t, ht, -, -, htx, hrx⟩ := hloop.takeTicks (rxTicks_pushed hf1 hf' hshift hsub hq hidle hfull hi)
  refine ⟨t, ht, ?_⟩
  rw [hrx, htx]
  exact ⟨Memory.get_set_same _ _ b, rfl, rfl, rfl, rfl, txTicks_pushed_queue hf1 hf' hshift hsub hq,
    fun a ha => Memory.get_set_other _ _ a b ha⟩

end Sys2Proof.Machine
end

section
/-! SUPPORT. The divider rounds to nearest: DIVISOR times the tick rate lies within half a tick rate of F_CLK
(40_timebase.md R101). -/

namespace Sys2Proof

variable {c : Config}

/-- The rounded quotient as a product: within half of `R_TICK` of `F_CLK`, the lower half open because ties go up. -/
theorem Config.divisor_mul_rTick (h : 0 < c.rTick) :
    2 * (c.divisor * c.rTick) ≤ 2 * c.fClk + c.rTick ∧ 2 * c.fClk < 2 * (c.divisor * c.rTick) + c.rTick := by
  have hprod : c.divisor * (2 * c.rTick) = 2 * (c.divisor * c.rTick) := Nat.mul_left_comm _ _ _
  have hlo : c.divisor * (2 * c.rTick) ≤ 2 * c.fClk + c.rTick := Nat.div_mul_le_self _ _
  have hhi : 2 * c.fClk + c.rTick < c.divisor * (2 * c.rTick) + 2 * c.rTick :=
    Nat.lt_div_mul_add (Nat.mul_pos Nat.two_pos h)
  omega

/-- Settles O5: DIVISOR errs by at most half of `R_TICK`, and every other divider value is a whole `R_TICK` further off
on one side; the half is reached only from above, so a tie is with a smaller value. -/
theorem divisorIsNearestTiesUpward : Obligations.DivisorIsNearestTiesUpward := by
  intro c k hpos
  obtain ⟨hlo, hhi⟩ := Config.divisor_mul_rTick hpos
  obtain hlt | rfl | hgt := Nat.lt_trichotomy k c.divisor
  · have hbelow : k * c.rTick + c.rTick ≤ c.divisor * c.rTick :=
      (Nat.succ_mul k c.rTick).symm.trans_le (Nat.mul_le_mul_right _ hlt)
    omega
  · exact ⟨le_rfl, fun _ => le_rfl⟩
  · have habove : c.divisor * c.rTick + c.rTick ≤ k * c.rTick :=
      (Nat.succ_mul c.divisor c.rTick).symm.trans_le (Nat.mul_le_mul_right _ hgt)
    omega

end Sys2Proof
end

section
/-! SUPPORT. A run of clock edges: the divider holds, counts, or takes the TICK (40_timebase.md R103). -/

namespace Sys2Proof.Machine

variable {s t : State}

/-! The three answers of a clock edge. -/

theorem clockEdge_of_stopped (h : s.timerRun = false) : clockEdge s = .next s := by
  simp [clockEdge, h]

theorem clockEdge_of_counting (h : s.timerRun = true) (hne : s.divCnt ≠ s.cfg.top) :
    clockEdge s = .next { s with divCnt := s.divCnt + 1 } := by
  simp [clockEdge, h, hne]

theorem clockEdge_of_due (h : s.timerRun = true) (htop : s.divCnt = s.cfg.top) (hbody : s.tickRun = false) :
    clockEdge s = takeTick { s with divCnt := 0 } := by
  simp [clockEdge, h, htop, hbody]

/-- The state in which the next clock edge acts, after `k` of them without a TICK and with `rest` as the script. -/
def State.afterEdges (s : State) (k : Nat) (rest : List Stimulus) : State :=
  { s with
    divCnt := if s.timerRun then s.divCnt + k else s.divCnt
    out := none
    env := { s.env with script := rest, now := s.env.now + k } }

theorem State.opened_eq_afterEdges {x : Stimulus} {rest : List Stimulus} (h : s.env.script = x :: rest) :
    s.opened = s.afterEdges 0 rest := by
  simp [State.opened_of_script h, State.afterEdges]

theorem State.afterEdges_divCnt (hrun : s.timerRun = true) (k : Nat) (rest : List Stimulus) :
    (s.afterEdges k rest).divCnt = s.divCnt + k := by
  simp [State.afterEdges, hrun]

theorem State.afterEdges_afterEdges (j k : Nat) (rest rest' : List Stimulus) :
    (s.afterEdges j rest).afterEdges k rest' = s.afterEdges (j + k) rest' := by
  cases h : s.timerRun <;> simp [State.afterEdges, h, Nat.add_assoc]

/-- A counted clock edge at which no TICK is due is one edge more. -/
theorem countStep_clockEdge_afterEdges {k : Nat} {rest : List Stimulus}
    (hne : s.timerRun = true → s.divCnt + k ≠ s.cfg.top) :
    countStep (clockEdge (s.afterEdges k rest)) = .next (s.afterEdges (k + 1) rest) := by
  by_cases hrun : s.timerRun = true
  · have hlast : (s.afterEdges k rest).divCnt ≠ s.cfg.top := by rw [State.afterEdges_divCnt hrun]; exact hne hrun
    rw [clockEdge_of_counting (s := s.afterEdges k rest) hrun hlast]
    simp [countStep, State.counted, State.afterEdges, hrun, Nat.add_assoc]
  · have hstop : s.timerRun = false := eq_false_of_ne_true hrun
    rw [clockEdge_of_stopped (s := s.afterEdges k rest) hstop]
    simp [countStep, State.counted, State.afterEdges, hstop, Nat.add_assoc]

theorem step_clock {rest : List Stimulus} (hc : s.cfg.check = none) (hscript : s.env.script = .clock :: rest) :
    step s = countStep (clockEdge (s.afterEdges 0 rest)) := by
  rw [step_of_stimulus hc (State.stimulus_of_script hscript), State.opened_eq_afterEdges hscript, react]

theorem steps_one : steps 1 s = step s := by
  unfold steps
  cases step s <;> rfl

theorem steps_succ_of_next (h : step s = .next t) (k : Nat) : steps (k + 1) s = steps k t := by
  rw [steps, h]

/-- The last of `k + 1` clock edges acts on what the first `k` have left, when no TICK is due at those. -/
theorem steps_clock {k : Nat} {rest : List Stimulus} (hc : s.cfg.check = none)
    (hscript : s.env.script = List.replicate (k + 1) .clock ++ rest)
    (hle : s.timerRun = true → s.divCnt + k ≤ s.cfg.top) :
    steps (k + 1) s = countStep (clockEdge (s.afterEdges k rest)) := by
  induction k generalizing s with
  | zero => rw [steps_one, step_clock hc hscript]; rfl
  | succ k ih =>
    have hfirst : step s = .next (s.afterEdges 1 (List.replicate (k + 1) .clock ++ rest)) := by
      rw [step_clock hc hscript]
      exact countStep_clockEdge_afterEdges fun hrun => by have := hle hrun; omega
    have hle' (hrun : s.timerRun = true) :
        (s.afterEdges 1 (List.replicate (k + 1) .clock ++ rest)).divCnt + k ≤ s.cfg.top := by
      have := hle hrun
      rw [State.afterEdges_divCnt hrun]
      omega
    rw [steps_succ_of_next hfirst, ih (s := s.afterEdges 1 _) hc rfl hle', State.afterEdges_afterEdges,
      Nat.add_comm 1 k]

/-- Settles O15: what is left is the last edge, which counts, takes the TICK, or holds. -/
theorem tickEveryDivisorClockEdges : Obligations.TickEveryDivisorClockEdges := by
  intro s k rest hc hscript
  have hdue (hrun : s.timerRun = true) (hbody : s.tickRun = false) (htop : s.divCnt + k = s.cfg.top) :
      steps (k + 1) s = countStep (takeTick
        { s with divCnt := 0, out := none, env := { s.env with script := rest, now := s.env.now + k } }) := by
    have hlast : (s.afterEdges k rest).divCnt = s.cfg.top := by rw [State.afterEdges_divCnt hrun, htop]
    rw [steps_clock hc hscript fun _ => htop.le, clockEdge_of_due (s := s.afterEdges k rest) hrun hlast hbody]
    rfl
  refine ⟨fun hrun hlt => ?_, hdue, fun hrun hbody hzero hk => ?_, fun hstop => ?_⟩
  · rw [steps_clock hc hscript fun _ => by omega, countStep_clockEdge_afterEdges fun _ => by omega]
    simp [State.afterEdges, hrun, Nat.add_assoc]
  · have htop : s.divCnt + k = s.cfg.top := by rw [hzero, Config.top, ← hk]; omega
    rw [hdue hrun hbody htop, ← hzero]
  · have hnever {p : Prop} (hrun : s.timerRun = true) : p := absurd hrun (ne_true_of_eq_false hstop)
    rw [steps_clock hc hscript hnever, countStep_clockEdge_afterEdges hnever]
    simp [State.afterEdges, hstop, Nat.add_assoc]

end Sys2Proof.Machine
end

section
/-! SUPPORT. Who writes `timer_run`: BEGIN and reset (40_timebase.md R108, 45_lifecycle.md R190). -/

namespace Sys2Proof.Machine

variable {s t : State}

/-- The waits on `tx_busy` and `rx_busy` leave the timebase alone when what they go on to does. -/
theorem spinWhile_timer {b : Bool} {i : Instr} {p : Phase} {u : State}
    (hu : u.timerRun = s.timerRun ∧ u.divCnt = s.divCnt) :
    (if b then s.spin i p else u).timerRun = s.timerRun ∧ (if b then s.spin i p else u).divCnt = s.divCnt := by
  cases b with
  | true => simp
  | false => exact hu

/-- No command but BEGIN writes the timebase. -/
theorem exec_timer {i : Instr} (h : exec i s = .next t) (hi : i ≠ .beginCmd) :
    t.timerRun = s.timerRun ∧ t.divCnt = s.divCnt := by
  cases i with
  | beginCmd => exact absurd rfl hi
  | flush | senseBegin => cases h; exact spinWhile_timer ⟨rfl, rfl⟩
  | enqueue d =>
    simp only [exec, execEnqueue, State.spin_eq_spun] at h
    split at h <;> cases h <;> exact ⟨rfl, rfl⟩
  | endCmd =>
    simp only [exec, execEnd] at h
    split at h <;> cases h <;> exact spinWhile_timer ⟨rfl, rfl⟩
  | rxDisable =>
    simp only [exec, execRxDisable] at h
    split at h <;> cases h
    · exact ⟨rfl, rfl⟩
    · exact spinWhile_timer ⟨rfl, rfl⟩
  | available =>
    simp only [exec, execAvailable] at h
    split at h <;> cases h <;> exact ⟨rfl, rfl⟩
  | rxEnable =>
    simp only [exec, execRxEnable] at h
    split at h <;> cases h <;> exact ⟨rfl, rfl⟩
  | read => obtain ⟨v, rfl⟩ | ⟨v, -, -, rfl⟩ := exec_read_next h <;> exact ⟨rfl, rfl⟩
  | peek => obtain ⟨v, rfl⟩ := exec_peek_next h; exact ⟨rfl, rfl⟩
  | _ => cases h; exact ⟨rfl, rfl⟩

theorem exec_begin_timerRun (h : exec .beginCmd s = .next t) : t.timerRun = true := by
  cases h
  rfl

/-- No command clears `timer_run`, and only BEGIN sets it. -/
theorem exec_timerRun {i : Instr} (h : exec i s = .next t) :
    t.timerRun = s.timerRun ∨ (t.timerRun = true ∧ i = .beginCmd) := by
  by_cases hi : i = .beginCmd
  · subst hi
    exact .inr ⟨exec_begin_timerRun h, rfl⟩
  · exact .inl (exec_timer h hi).1

/-- The command that the sequencer evaluates next is BEGIN: the one at the head of the port, or the one in progress. -/
def State.RunsBegin (s : State) : Prop :=
  (s.fg = .ready ∧ ∃ w ws, s.env.port = w :: ws ∧ decode w = .beginCmd) ∨ ∃ p, s.fg = .spin .beginCmd p

theorem foregroundStep_timerRun (h : foregroundStep s = .next t) :
    t.timerRun = s.timerRun ∨ (t.timerRun = true ∧ s.RunsBegin) := by
  obtain ⟨-, hs⟩ | ⟨-, -, -, hs⟩ | ⟨w, ws, -, hfg, hport, hs⟩ | ⟨c, p, -, hfg, hs⟩ :=
    foregroundStep_cases s <;> rw [hs] at h
  · cases h; exact .inl rfl
  · cases h; exact .inl rfl
  · exact (exec_timerRun h).imp_right fun ⟨hset, hbegin⟩ => ⟨hset, .inl ⟨hfg, w, ws, hport, hbegin⟩⟩
  · exact (exec_timerRun h).imp_right fun ⟨hset, hbegin⟩ => ⟨hset, .inr ⟨p, hbegin ▸ hfg⟩⟩

theorem takeTick_timerRun (h : takeTick s = .next t) : t.timerRun = s.timerRun := by
  obtain ⟨r, -, rfl⟩ := takeTick_next.1 h
  simp

theorem clockEdge_timerRun (h : clockEdge s = .next t) : t.timerRun = s.timerRun := by
  obtain ⟨-, rfl⟩ | ⟨-, -, rfl⟩ | ⟨-, -, -, htick⟩ := clockEdge_next h
  · rfl
  · rfl
  · exact takeTick_timerRun (s := { s with divCnt := 0 }) htick

theorem offerWord_timerRun {w : CmdWord} (h : offerWord w s = .next t) : t.timerRun = s.timerRun := by
  unfold offerWord at h
  split at h <;> cases h
  rfl

/-- What a stimulus other than reset does to `timer_run`: nothing, or BEGIN sets it. -/
theorem react_timerRun {x : Stimulus} (hx : x ≠ .reset) (h : react x s = .next t) :
    t.timerRun = s.timerRun ∨ (t.timerRun = true ∧ x = .foreground ∧ s.RunsBegin) := by
  cases x with
  | clock => exact .inl (clockEdge_timerRun h)
  | foreground => exact (foregroundStep_timerRun h).imp_right fun ⟨hset, hbegin⟩ => ⟨hset, rfl, hbegin⟩
  | hookDone => cases h; exact .inl (State.hookDone_timerRun s)
  | offer w => exact .inl (offerWord_timerRun h)
  | setLine l => cases h; exact .inl rfl
  | setExtLow b => cases h; exact .inl rfl
  | reset => exact absurd rfl hx

/-- A reset step leaves the timer stopped (R231). -/
theorem react_reset_timerRun (h : react .reset s = .next t) : t.timerRun = false := by
  cases h
  rfl

/-- Settles O18: a step is its stimulus, and BEGIN and reset are the only writers of `timer_run`. -/
theorem onlyBeginStartsTheTimerAndOnlyResetStopsIt : Obligations.OnlyBeginStartsTheTimerAndOnlyResetStopsIt := by
  intro s t hs
  obtain ⟨-, u, hu, rfl⟩ := step_next hs
  by_cases hx : s.stimulus = .reset
  · rw [hx] at hu
    have hstop : u.timerRun = false := react_reset_timerRun hu
    exact ⟨fun _ hne => absurd hx hne, fun _ hset => absurd hset (ne_true_of_eq_false hstop), fun _ _ => hstop⟩
  · refine ⟨fun hrun _ => ?_, fun hstop hset => ?_, fun _ h => absurd h hx⟩ <;>
      obtain hkept | ⟨hrise, hfore, hbegin⟩ := react_timerRun hx hu
    · exact hkept.trans hrun
    · exact hrise
    · exact absurd hset (ne_true_of_eq_false (hkept.trans hstop))
    · exact ⟨hfore, hbegin⟩

end Sys2Proof.Machine
end

section
/-! SUPPORT. The level that the receive part of a TICK samples (10_state.md R49, 44_pin_sense.md R183,
40_timebase.md R104). -/

namespace Sys2Proof.Machine

variable {s : State}

theorem State.sampleRx_of_level {v : Level} (h : s.env.line = .level v) : s.sampleRx = v := by
  simp [State.sampleRx, h]

/-! A looped-back line in the rows of R183's table that fix the pad's level. -/

theorem State.sampleRx_of_driven (h : s.env.line = .loopback) (hoe : s.tx.oe = true) (hext : s.env.extLow = false) :
    s.sampleRx = s.tx.out := by
  simp [State.sampleRx, State.pad, h, hoe, hext]

theorem State.sampleRx_of_pulledUp (h : s.env.line = .loopback) (hoe : s.tx.oe = false) (hpu : s.tx.pu = true)
    (hext : s.env.extLow = false) : s.sampleRx = true := by
  simp [State.sampleRx, State.pad, h, hoe, hpu, hext]

theorem State.sampleRx_of_pulledLow (h : s.env.line = .loopback) (hoe : s.tx.oe = false) (hext : s.env.extLow = true) :
    s.sampleRx = false := by
  cases hpu : s.tx.pu <;> simp [State.sampleRx, State.pad, h, hoe, hpu, hext]

/-! The receive part of a TICK, which runs only while there is a receiver that listens. -/

theorem State.receivePart_of_off (h : s.cfg.txOnly = true ∨ s.rx.disabled = true) : s.receivePart = .ok s.rx := by
  simp [State.receivePart, h]

theorem State.receivePart_of_listening (hduplex : s.cfg.txOnly = false) (hen : s.rx.disabled = false) :
    s.receivePart = rxTick s.cfg s.sampleRx s.rx := by
  simp [State.receivePart, hduplex, hen]

/-- Settles O16: the parts of the TICK in turn; the sample is taken of the state that the transmit part has left, whose
pin mode is the one before. -/
theorem tickRunsTransmitReceiveHookInOrder : Obligations.TickRunsTransmitReceiveHookInOrder := by
  refine ⟨fun s hstop => clockEdge_of_stopped hstop, fun s t ht => ?_⟩
  obtain ⟨r, hr, rfl⟩ := takeTick_next.1 ht
  refine ⟨by simp, fun hoff => ?_, fun hduplex hen => ?_, State.invokeTickHook_out _, State.invokeTickHook_tickRun _,
    by simp⟩
  · rw [State.receivePart_of_off (s := s.withTx (txTick s.cfg s.tx)) hoff] at hr
    cases hr
    simp
  · rw [State.receivePart_of_listening (s := s.withTx (txTick s.cfg s.tx)) hduplex hen] at hr
    have hoe {b : Bool} (h : s.tx.oe = b) : (txTick s.cfg s.tx).oe = b := by rw [txTick_oe, h]
    have hpu {b : Bool} (h : s.tx.pu = b) : (txTick s.cfg s.tx).pu = b := by rw [txTick_pu, h]
    refine ⟨(s.withTx (txTick s.cfg s.tx)).sampleRx, by simpa using hr, fun v hline => ?_,
      fun hline hdriven hext => ?_, fun hline hfloat hup hext => ?_, fun hline hfloat hext => ?_⟩
    · exact State.sampleRx_of_level hline
    · rw [State.sampleRx_of_driven (s := s.withTx (txTick s.cfg s.tx)) hline (hoe hdriven) hext]
      simp
    · exact State.sampleRx_of_pulledUp hline (hoe hfloat) (hpu hup) hext
    · exact State.sampleRx_of_pulledLow hline (hoe hfloat) hext

end Sys2Proof.Machine
end

section
/-! SUPPORT. The transmit commands and the ends of a frame (41_transmit.md R120 to R125): what the tick after a frame's
last one does, and how long `tx_busy` stays 1. -/

namespace Sys2Proof.Machine

/-! The answers of the three transmit commands. -/

section
variable (s : State)

theorem exec_enqueue (d : Byte) : exec (.enqueue d) s = .next (if s.tx.len = s.cfg.nTx then s.spun (.enqueue d) .zero
    else (s.withTx (s.tx.push d).setBusy).done rspDone) := by
  simp only [exec, execEnqueue, State.spin_eq_spun, State.respond_eq_done]
  split <;> rfl

theorem exec_flush : exec .flush s = .next (if s.tx.busy then s.spun .flush .zero else s.done rspDone) := by
  simp only [exec, execFlush, State.whenTxIdle, State.spin_eq_spun, State.respond_eq_done]

theorem exec_isBusy : exec .isBusy s = .next (s.done (rspBit s.tx.busy)) := rfl

/-- The two answers of IS_BUSY are told apart by their response words. -/
theorem exec_isBusy_eq_one_iff : exec .isBusy s = .next (s.done 0x001) ↔ s.tx.busy = true := by
  rw [exec_isBusy]
  cases s.tx.busy <;> simp [rspBit, State.done]

end

/-- Settles O19: the queue has room or is full. -/
theorem enqueueAppendsOrSpins : Obligations.EnqueueAppendsOrSpins := by
  intro d s
  rw [exec_enqueue, Tx.len]
  refine ⟨fun hroom => ?_, fun hfull => ?_⟩
  · rw [if_neg hroom]
    rfl
  · rw [if_pos hfull]

/-- Settles O20: `tx_busy` is 0 or 1. -/
theorem flushWaitsForTheTransmitter : Obligations.FlushWaitsForTheTransmitter := by
  intro s
  rw [exec_flush]
  refine ⟨fun hidle => ?_, fun hbusy => ?_⟩
  · rw [hidle]
    rfl
  · rw [hbusy]
    rfl

/-- Settles O21: the answer is `tx_busy`, which the transmit invariant (R45) reads as pending work. -/
theorem isBusyReportsPendingTransmission : Obligations.IsBusyReportsPendingTransmission := by
  intro s
  refine ⟨(exec_isBusy_eq_one_iff s).2, fun hidle => ?_, fun h => ?_⟩
  · rw [exec_isBusy, hidle]
    rfl
  · exact (exec_isBusy_eq_one_iff s).trans h.busy_iff

variable {c : Config} {t : Tx}

theorem txTick_of_idle (h : t.sub.toNat ≤ 1) (hw : t.shift = 0) (hq : t.queue = []) :
    txTick c t = { t with sub := 0, busy := false } := by
  rw [txTick_eq, if_neg (Nat.not_lt.2 h), Tx.advance, if_pos hw]
  simp only [Tx.pop, hq]
  rfl

/-- Settles O22: one outcome for each state of sub-bit counter, shift register and queue; the low bit of a reloaded
frame is the start bit. -/
theorem txTickHoldsReloadsOutputsOrIdles : Obligations.TxTickHoldsReloadsOutputsOrIdles := by
  intro c t
  refine ⟨txTick_of_held, txTick_of_idle, fun b bs hsub hw hq => ?_, txTick_of_loaded⟩
  rw [txTick_of_reload hsub hw hq, Tx.output, frame_getLsbD_zero]

section
variable {b : Byte} {bs : List Byte} (hf : 1 ≤ c.f) (hf' : c.f ≤ 170)
  (hw : t.shift = 0) (hsub : t.sub.toNat ≤ 1) (hq : t.queue = b :: bs)
include hf hf' hw hsub hq

/-- R124: the last of the 10 F ticks of a byte is the last of the stop bit. -/
theorem txTicks_byte_out : (txTicks c (10 * c.f) t).out = true := by
  have hlast : 10 * c.f = 9 * c.f + (c.f - 1) + 1 := by omega
  rw [hlast, txTicks_eq_atBit hf hf' hw hsub hq (by omega) (by omega)]
  exact frame_getLsbD_nine b

/-- R125: no tick of a byte writes `tx_busy`: after the `m`-th, some bit of its frame is on the latch. -/
theorem txTicks_byte_busy {m : Nat} (hm : m ≤ 10 * c.f) : (txTicks c m t).busy = t.busy := by
  cases m with
  | zero => rfl
  | succ m =>
    have hbit : m / c.f < 10 := Nat.div_lt_of_lt_mul (by rw [Nat.mul_comm]; exact hm)
    rw [← Nat.div_add_mod' m c.f, txTicks_eq_atBit hf hf' hw hsub hq hbit (Nat.mod_lt _ hf)]
    rfl

end

/-- Settles O23: the ticks of the frame show its bits; the next one finds the shift register empty and goes by the
queue. -/
theorem frameBitsLastExactlyFTicks : Obligations.FrameBitsLastExactlyFTicks := by
  intro c t b bs hc hw hsub hq
  obtain ⟨hf3, hf', -⟩ := Config.check_eq_none_iff.1 hc
  have hf : 1 ≤ c.f := by omega
  obtain ⟨hq', hw', hsub'⟩ := txTicks_byte hf hf' hw hsub hq
  refine ⟨fun j k hj hk => ?_, fun hnone => ?_, fun b' bs' hnext => ?_⟩
  · rw [txTicks_eq_atBit hf hf' hw hsub hq hj hk]
    exact ⟨rfl, Tx.atBit_sub_toNat hf hf' j k, rfl, rfl, rfl⟩
  · rw [txTicks, txTick_of_idle hsub' hw' (hq'.trans hnone)]
    exact ⟨rfl, rfl, hw', txTicks_byte_out hf hf' hw hsub hq⟩
  · rw [txTicks, txTick_of_reload hsub' hw' (hq'.trans hnext)]
    exact ⟨frame_getLsbD_zero b', byte_toNat_ofNat (by omega), rfl, rfl⟩

/-- 10 F ticks per byte empty the queue and leave the transmitter ready to load. -/
theorem txTicks_queue (hf : 1 ≤ c.f) (hf' : c.f ≤ 170) (hw : t.shift = 0) (hsub : t.sub.toNat ≤ 1) {q : List Byte}
    (hq : t.queue = q) :
    (txTicks c (10 * c.f * q.length) t).queue = [] ∧ (txTicks c (10 * c.f * q.length) t).shift = 0 ∧
      (txTicks c (10 * c.f * q.length) t).sub.toNat ≤ 1 := by
  induction q generalizing t with
  | nil => exact ⟨hq, hw, hsub⟩
  | cons b bs ih =>
    obtain ⟨hq', hw', hsub'⟩ := txTicks_byte hf hf' hw hsub hq
    rw [List.length_cons, Nat.mul_succ, Nat.add_comm, txTicks_add]
    exact ih hw' hsub' hq'

/-- R125: no tick before those are over writes `tx_busy`. -/
theorem txTicks_queue_busy (hf : 1 ≤ c.f) (hf' : c.f ≤ 170) (hw : t.shift = 0) (hsub : t.sub.toNat ≤ 1)
    {q : List Byte} (hq : t.queue = q) {m : Nat} (hm : m ≤ 10 * c.f * q.length) :
    (txTicks c m t).busy = t.busy := by
  induction q generalizing t m with
  | nil =>
    rw [Nat.le_zero.1 hm]
    rfl
  | cons b bs ih =>
    obtain hfirst | hlater := Nat.le_total m (10 * c.f)
    · exact txTicks_byte_busy hf hf' hw hsub hq hfirst
    · obtain ⟨hq', hw', hsub'⟩ := txTicks_byte hf hf' hw hsub hq
      rw [List.length_cons, Nat.mul_succ] at hm
      rw [← Nat.add_sub_cancel' hlater, txTicks_add]
      exact (ih hw' hsub' hq' (by omega)).trans (txTicks_byte_busy hf hf' hw hsub hq le_rfl)

/-- Settles O24: the tick after those of the queued bytes is that of the idle branch. -/
theorem busyLastsTenFTicksPerByte : Obligations.BusyLastsTenFTicksPerByte := by
  intro c t hc hw hsub hbusy _
  obtain ⟨hf3, hf', -⟩ := Config.check_eq_none_iff.1 hc
  have hf : 1 ≤ c.f := by omega
  obtain ⟨hempty, hw', hsub'⟩ := txTicks_queue hf hf' hw hsub rfl
  refine ⟨fun m hm => (txTicks_queue_busy hf hf' hw hsub rfl hm).trans hbusy, ?_⟩
  rw [Nat.add_comm 1, txTicks, txTick_of_idle hsub' hw' hempty]
  exact ⟨rfl, hempty⟩

end Sys2Proof.Machine
end

section
/-! SUPPORT. The rule of RxTick for each state of the receiver (42_receive.md R141 to R144). -/

namespace Sys2Proof.Machine

variable {c : Config} {r : Rx}

/-- The decrement of `rx_sub` reaches zero exactly from 1: from 0 it wraps. -/
theorem Rx.sub_sub_one_eq_zero_iff : r.sub - 1 = 0 ↔ r.sub = 1 := by
  constructor <;> intro h <;> bv_omega

/-- A tick of a character whose decrement does not reach zero only counts, whatever the level and whichever the window
(R142, R143). -/
theorem rxTick_of_sub_ne (hs : r.state ≠ .idle) (hsub : r.sub - 1 ≠ 0) (level : Level) :
    rxTick c level r = .ok { r with sub := r.sub - 1 } := by
  cases h : r.state with
  | idle => exact absurd h hs
  | inCharacter => simp only [rxTick, h, rxTickInCharacter, if_neg hsub]
  | awaitingStopBit => simp only [rxTick, h, rxTickAwaitingStop, if_neg hsub]

/-- R143, R77: a full ring drops the byte at the end of the stop window. -/
theorem rxTick_of_stop_full (hs : r.state = .awaitingStopBit) (hsub : r.sub = 1) (hfull : r.full c = true)
    (level : Level) : rxTick c level r = .ok { r with sub := 0, busy := false, state := .idle } := by
  have hzero : r.sub - 1 = 0 := Rx.sub_sub_one_eq_zero_iff.2 hsub
  have hrule : rxTick c level r = rxTickAwaitingStop c r := by simp only [rxTick, hs]
  rw [hrule, rxTickAwaitingStop, if_pos hzero, Rx.push_of_full (r := { r with sub := 0 }) hfull]
  rfl

/-- Settles O25: `rx_sub` is loaded with RX_START_DELAY, which is `F + F div 2`. -/
theorem lowLevelInIdleStartsACharacter : Obligations.LowLevelInIdleStartsACharacter :=
  fun _ _ hidle => ⟨rxTick_of_low hidle, rxTick_of_high hidle⟩

/-- Settles O26: the decrement reaches zero or not; ORing in nothing leaves `rx_acc`. -/
theorem dataBitIsSampledWhenTheCounterRunsOut : Obligations.DataBitIsSampledWhenTheCounterRunsOut := by
  intro c level r hs
  refine ⟨fun hsub => rxTick_of_sub_ne (by simp [hs]) hsub level, fun hsub => ?_⟩
  have hacc : (r.acc ||| if level then r.mask else 0) = if level then r.acc ||| r.mask else r.acc := by
    cases level <;> simp
  rw [hacc]
  exact rxTick_of_sample hs (Rx.sub_sub_one_eq_zero_iff.1 hsub) level

/-- Settles O27: the decrement reaches zero or not, and then the ring is full or has room. -/
theorem stopWindowEndsInAPushWhateverTheLevel : Obligations.StopWindowEndsInAPushWhateverTheLevel := by
  intro c level r hs
  refine ⟨fun hsub => rxTick_of_sub_ne (by simp [hs]) hsub level, fun hsub hfull => ?_, fun hsub hfull hi => ?_⟩
  · exact rxTick_of_stop_full hs (Rx.sub_sub_one_eq_zero_iff.1 hsub) hfull level
  · exact rxTick_of_stop hs (Rx.sub_sub_one_eq_zero_iff.1 hsub) hfull hi level

end Sys2Proof.Machine
end

section
/-! SUPPORT. A whole character, tick by tick: the ring and `rx_busy` stand still until the push (42_receive.md R145). -/

namespace Sys2Proof.Machine

variable {c : Config} {levels : Nat → Level} {r : Rx}

/-- A character is being received: `rx_busy` is 1 and the ring is that of `r`. -/
def Rx.Receiving (r q : Rx) : Prop :=
  q.busy = true ∧ q.buf = r.buf ∧ q.inIdx = r.inIdx ∧ q.outIdx = r.outIdx

section
variable (hf : 1 ≤ c.f) (hf' : c.f ≤ 170) (hs : r.state = .idle) (hlow : levels 0 = false)
include hf hf' hs hlow

/-- The wait for half a bit period after the start. -/
theorem rxTicks_receiving_start {k : Nat} (hk : k ≤ c.f / 2) :
    ∃ q, rxTicks c levels (1 + k) r = .ok q ∧ r.Receiving q := by
  have hdelay : (BitVec.ofNat 8 c.rxStartDelay).toNat = c.f + c.f / 2 :=
    byte_toNat_ofNat (by unfold Config.rxStartDelay; omega)
  have hstart : rxTicks c levels 1 r = rxTick c false r := by rw [← hlow]; rfl
  rw [rxTick_of_low hs] at hstart
  rw [rxTicks_add hstart, rxTicks_of_counting (by simp) (by dsimp only; omega)]
  exact ⟨_, rfl, rfl, rfl, rfl, rfl⟩

/-- The F ticks from the `i`-th sample on, the one of the next sample or of the push left out. -/
theorem rxTicks_receiving_window {i k : Nat} (hi : i ≤ 8) (hk : k < c.f) :
    ∃ q, rxTicks c levels (1 + c.f / 2 + i * c.f + k) r = .ok q ∧ r.Receiving q := by
  have hstate : (r.afterSamples c levels i).state ≠ .idle := by
    unfold Rx.afterSamples
    split <;> simp
  have hsub : (r.afterSamples c levels i).sub.toNat = c.f := byte_toNat_ofNat (by omega)
  rw [rxTicks_add (rxTicks_eq_afterSamples hf hf' hs hlow hi), rxTicks_of_counting hstate (by omega)]
  exact ⟨_, rfl, rfl, rfl, rfl, rfl⟩

/-- R145: every tick from the start through the one before the push lies in the start delay or in the window of a
sample. -/
theorem rxTicks_receiving {n : Nat} (hn : 1 ≤ n) (hn' : n ≤ c.rxStartDelay + 8 * c.f) :
    ∃ q, rxTicks c levels n r = .ok q ∧ r.Receiving q := by
  unfold Config.rxStartDelay at hn'
  obtain hstart | hlater := Nat.le_total n (1 + c.f / 2)
  · rw [← Nat.add_sub_cancel' hn]
    exact rxTicks_receiving_start hf hf' hs hlow (by omega)
  · obtain ⟨m, rfl⟩ := Nat.exists_eq_add_of_le hlater
    have hwindow : m / c.f ≤ 8 := Nat.le_of_lt_succ (Nat.div_lt_of_lt_mul (by omega))
    rw [← Nat.div_add_mod' m c.f, ← Nat.add_assoc]
    exact rxTicks_receiving_window hf hf' hs hlow hwindow (Nat.mod_lt _ hf)

/-- The tick of the push finds all eight samples taken and the stop window at its end. -/
theorem rxTicks_push_eq_rxTick :
    rxTicks c levels (c.rxStartDelay + 8 * c.f + 1) r =
      rxTick c (levels (c.rxStartDelay + 8 * c.f)) { r.afterSamples c levels 8 with sub := 1 } := by
  have hsplit : c.rxStartDelay + 8 * c.f = 1 + c.f / 2 + 8 * c.f + (c.f - 1) := by
    unfold Config.rxStartDelay
    omega
  have hone := rxTicks_to_one (levels := fun k => levels (1 + c.f / 2 + 8 * c.f + k)) hf hf'
    (r := r.afterSamples c levels 8) (by simp [Rx.afterSamples]) rfl
  rw [rxTicks, hsplit, rxTicks_add (rxTicks_eq_afterSamples hf hf' hs hlow (Nat.le_refl 8)), hone]

/-- R145, R77: a full ring drops the byte that has been assembled. -/
theorem rxTicks_dropped (hfull : r.full c = true) :
    rxTicks c levels (c.rxStartDelay + 8 * c.f + 1) r =
      .ok { r.afterSamples c levels 8 with sub := 0, busy := false, state := .idle } := by
  rw [rxTicks_push_eq_rxTick hf hf' hs hlow]
  exact rxTick_of_stop_full (r := { r.afterSamples c levels 8 with sub := 1 }) rfl rfl hfull _

end

/-- The eight samples are the bits of the byte, least significant first (R83). -/
theorem sampledByte_eight_getLsbD {k : Nat} (hk : k < 8) :
    (sampledByte c levels 8).getLsbD k = levels (c.rxStartDelay + k * c.f) := by
  rw [sampledByte_getLsbD hk, decide_eq_true hk, Bool.true_and]

/-- Settles O28: the ticks before the push only sample; the push is dropped or stores the sampled byte. -/
theorem receiverAssemblesTheSampledLevels : Obligations.ReceiverAssemblesTheSampledLevels := by
  intro c levels r hc _ hs hi hlow
  obtain ⟨hf3, hf', -⟩ := Config.check_eq_none_iff.1 hc
  have hf : 1 ≤ c.f := by omega
  refine ⟨fun n hn hn' => rxTicks_receiving hf hf' hs hlow hn hn', ?_⟩
  cases hfull : r.full c with
  | true =>
    exact ⟨_, rxTicks_dropped hf hf' hs hlow hfull, rfl, rfl, rfl, rfl, fun _ => sampledByte_eight_getLsbD,
      fun _ => ⟨rfl, rfl⟩, nofun⟩
  | false =>
    exact ⟨_, rxTicks_received hf hf' hs hlow hfull hi, rfl, rfl, rfl, rfl, fun _ => sampledByte_eight_getLsbD,
      nofun, fun _ => ⟨rfl, rfl⟩⟩

end Sys2Proof.Machine
end

section
/-! SUPPORT. What the receive commands answer, in the full-duplex variant by the state of the ring, in the TX_ONLY
variant at once (42_receive.md R146 to R151). -/

namespace Sys2Proof.Machine

variable {s : State}

/-! The 8-bit difference of AVAILABLE (R146). -/

theorem Rx.difference_of_empty {r : Rx} (c : Config) (h : r.inIdx = r.outIdx) : r.difference c = 0 := by
  simp [Rx.difference, h]

/-- Bit 7 of the difference of two indices below 128 says that it has wrapped. -/
theorem Rx.difference_eq_count {c : Config} {r : Rx} (hi : r.inIdx.toNat < c.nRx) (ho : r.outIdx.toNat < c.nRx)
    (hle : c.nRx ≤ 128) : r.difference c = BitVec.ofNat 8 (r.count c) := by
  have hbit : (r.inIdx - r.outIdx).getLsbD 7 = decide (128 ≤ (r.inIdx - r.outIdx).toNat) :=
    BitVec.msb_eq_decide (r.inIdx - r.outIdx)
  simp only [Rx.difference, hbit, decide_eq_true_eq, Rx.count_eq_ite hi ho]
  split <;> split <;> bv_omega

/-! An empty ring answers "none". -/

theorem exec_read_of_empty (h : s.rx.inIdx = s.rx.outIdx) : exec .read s = .next (s.done rspNone) := by
  simp [exec, execRead, Rx.empty, h]

theorem exec_peek_of_empty (h : s.rx.inIdx = s.rx.outIdx) : exec .peek s = .next (s.done rspNone) := by
  simp [exec, execPeek, Rx.empty, h]

/-! The full-duplex variant. -/

section
variable (hduplex : s.cfg.txOnly = false)
include hduplex

theorem exec_available_of_duplex : exec .available s = .next (s.done (rspByte (s.rx.difference s.cfg))) := by
  simp [exec, execAvailable, hduplex]

theorem exec_read_of_get {v : Byte} (hunread : s.rx.inIdx ≠ s.rx.outIdx) (ho : s.rx.outIdx.toNat < s.cfg.nRx)
    (hget : s.rx.buf.get s.rx.outIdx.toNat = some v) :
    exec .read s = .next ((s.withRx { s.rx with outIdx := nextSlot s.cfg s.rx.outIdx }).done (rspByte v)) := by
  simp [exec, execRead, hduplex, Rx.empty_eq_false_iff.2 hunread, Rx.pop_of_get ho hget]

theorem exec_peek_of_get {v : Byte} (hunread : s.rx.inIdx ≠ s.rx.outIdx) (ho : s.rx.outIdx.toNat < s.cfg.nRx)
    (hget : s.rx.buf.get s.rx.outIdx.toNat = some v) : exec .peek s = .next (s.done (rspByte v)) := by
  simp [exec, execPeek, hduplex, Rx.empty_eq_false_iff.2 hunread, Rx.front_of_get ho hget]

theorem exec_rxEnable_of_duplex : exec .rxEnable s = .next ((s.withRx s.rx.enable).done rspDone) := by
  simp [exec, execRxEnable, hduplex]

theorem exec_rxDisable_of_duplex : exec .rxDisable s =
    .next (if s.rx.busy then s.spun .rxDisable .zero else (s.withRx s.rx.disable).done rspDone) := by
  simp [exec, execRxDisable, State.whenRxIdle, hduplex]

end

/-- The stub of AVAILABLE (R151). -/
theorem exec_available_of_txOnly (htx : s.cfg.txOnly = true) : exec .available s = .next (s.done rspDone) := by
  simp [exec, execAvailable, htx]

/-- Settles O30: the corrected difference is the count, which a byte and so the response word holds. -/
theorem availableAnswersTheUnreadCount : Obligations.AvailableAnswersTheUnreadCount := by
  intro s hc
  refine ⟨fun hduplex hi ho => ?_, exec_available_of_txOnly⟩
  obtain ⟨-, -, hring, -⟩ := Config.check_eq_none_iff.1 hc
  have hle : s.cfg.nRx ≤ 128 := hring hduplex
  have hlt : s.rx.count s.cfg < s.cfg.nRx := Rx.count_lt hi ho
  refine ⟨?_, by omega, by omega⟩
  have hword : rspByte (BitVec.ofNat 8 (s.rx.count s.cfg)) = BitVec.ofNat 9 (s.rx.count s.cfg) :=
    BitVec.setWidth_ofNat_of_le_of_lt (by decide) (by omega)
  rw [exec_available_of_duplex hduplex, Rx.difference_eq_count hi ho hle, hword]

/-- Settles O31: the ring is empty or has an oldest unread byte. -/
theorem readPopsTheOldestByte : Obligations.ReadPopsTheOldestByte := fun _ hduplex =>
  ⟨exec_read_of_empty, fun _ hunread ho hget => exec_read_of_get hduplex hunread ho hget⟩

/-- Settles O34: RX_ENABLE has no other case in the full-duplex variant. -/
theorem rxEnableClearsTheDisabledFlag : Obligations.RxEnableClearsTheDisabledFlag :=
  fun _ hduplex => exec_rxEnable_of_duplex hduplex

/-- Settles O35: `rx_busy` is 0 or 1; the ring that RX_DISABLE leaves is empty. -/
theorem rxDisableWaitsThenEmptiesTheQueue : Obligations.RxDisableWaitsThenEmptiesTheQueue := by
  intro s hduplex
  rw [exec_rxDisable_of_duplex hduplex]
  refine ⟨fun hbusy => by rw [if_pos hbusy], fun hidle => ?_⟩
  rw [if_neg (ne_true_of_eq_false hidle)]
  refine ⟨rfl, fun t ht => ?_⟩
  cases ht
  refine ⟨?_, exec_read_of_empty rfl, exec_peek_of_empty rfl⟩
  rw [exec_available_of_duplex (s := (s.withRx s.rx.disable).done rspDone) hduplex, Rx.difference_of_empty _ rfl]
  rfl

end Sys2Proof.Machine
end

section
/-! SUPPORT. What a TICK can do to the ring: a push, which never touches the front byte (42_receive.md R148,
20_memory.md R77). -/

namespace Sys2Proof.Machine

variable {c : Config} {r r' : Rx}

/-- RxTick leaves the ring alone, or ends a stop window with a push to a ring that has room. -/
theorem rxTick_ring_cases {level : Level} (h : rxTick c level r = .ok r') :
    (r'.buf = r.buf ∧ r'.inIdx = r.inIdx) ∨
    (r.state = .awaitingStopBit ∧ r.sub = 1 ∧ r.full c = false ∧
      r'.buf = r.buf.set r.inIdx.toNat r.acc ∧ r'.inIdx = nextSlot c r.inIdx) := by
  by_cases hcount : r.state ≠ .idle ∧ r.sub - 1 ≠ 0
  · rw [rxTick_of_sub_ne hcount.1 hcount.2] at h
    cases h
    exact .inl ⟨rfl, rfl⟩
  cases hs : r.state with
  | idle =>
    cases level with
    | true => rw [rxTick_of_high hs] at h; cases h; exact .inl ⟨rfl, rfl⟩
    | false => rw [rxTick_of_low hs] at h; cases h; exact .inl ⟨rfl, rfl⟩
  | inCharacter =>
    rw [rxTick_of_sample hs (Rx.sub_sub_one_eq_zero_iff.1 (by simpa [hs] using hcount))] at h
    cases h
    exact .inl ⟨rfl, rfl⟩
  | awaitingStopBit =>
    simp only [rxTick, hs] at h
    obtain ⟨-, rfl⟩ | ⟨-, -, rfl⟩ | ⟨hsub, hfull, -, rfl⟩ := rxTickAwaitingStop_cases h
    · exact .inl ⟨rfl, rfl⟩
    · exact .inl ⟨rfl, rfl⟩
    · exact .inr ⟨rfl, Rx.sub_sub_one_eq_zero_iff.1 hsub, hfull, rfl, rfl⟩

/-- R148: a push goes to a slot that is not the front, and does not make the ring look empty. -/
theorem rxTick_front {level : Level} (h : rxTick c level r = .ok r') (hunread : r.inIdx ≠ r.outIdx) :
    r'.inIdx ≠ r'.outIdx ∧ r'.buf.get r'.outIdx.toNat = r.buf.get r.outIdx.toNat := by
  obtain ⟨-, hout⟩ := rxTick_frame h
  rw [hout]
  obtain ⟨hbuf, hin⟩ | ⟨-, -, hfull, hbuf, hin⟩ := rxTick_ring_cases h <;> rw [hbuf, hin]
  · exact ⟨hunread, rfl⟩
  · have hslot : r.outIdx.toNat ≠ r.inIdx.toNat := fun heq => hunread (BitVec.eq_of_toNat_eq heq.symm)
    exact ⟨by simpa [Rx.full] using hfull, Memory.get_set_other _ _ _ _ hslot⟩

/-- A TICK without a receiver that listens: the transmit part and the hook. -/
theorem takeTick_of_off {s : State} (h : s.cfg.txOnly = true ∨ s.rx.disabled = true) :
    takeTick s = .next (s.withTx (txTick s.cfg s.tx)).invokeTickHook :=
  takeTick_next.2 ⟨s.rx, State.receivePart_of_off (s := s.withTx (txTick s.cfg s.tx)) h, rfl⟩

/-- R148: a TICK does not change the front byte of a ring with unread bytes. -/
theorem takeTick_front {s u : State} (h : takeTick s = .next u) (hunread : s.rx.inIdx ≠ s.rx.outIdx) :
    u.cfg = s.cfg ∧ u.rx.outIdx = s.rx.outIdx ∧ u.rx.inIdx ≠ u.rx.outIdx ∧
      u.rx.buf.get u.rx.outIdx.toNat = s.rx.buf.get s.rx.outIdx.toNat := by
  obtain ⟨r, hr, rfl⟩ := takeTick_next.1 h
  refine ⟨by simp, ?_⟩
  simp only [State.invokeTickHook_rx, State.withRx_rx]
  obtain ⟨-, rfl⟩ | ⟨-, -, htick⟩ := receivePart_cases hr
  · exact ⟨rfl, hunread, rfl⟩
  · obtain ⟨-, hout⟩ := rxTick_frame htick
    obtain ⟨hne, hget⟩ := rxTick_front htick hunread
    exact ⟨hout, hne, hget⟩

/-- Settles O32: PEEK changes nothing that READ or PEEK reads, and a TICK keeps the front byte. -/
theorem peekShowsTheByteReadWouldPop : Obligations.PeekShowsTheByteReadWouldPop := by
  intro s hduplex
  refine ⟨exec_peek_of_empty, fun v hunread ho hget => ⟨exec_peek_of_get hduplex hunread ho hget, ?_, ?_⟩⟩
  · exact ⟨_, exec_read_of_get (s := s.done (rspByte v)) hduplex hunread ho hget, rfl⟩
  · intro u hu
    obtain ⟨hcfg, hout, hne, hfront⟩ := takeTick_front hu hunread
    refine exec_peek_of_get ?_ hne ?_ (hfront.trans hget)
    · rw [hcfg]; exact hduplex
    · rw [hcfg, hout]; exact ho

end Sys2Proof.Machine
end

section
/-! SUPPORT. The TX_ONLY variant: five stubs, and a TICK without a receive part (42_receive.md R151). -/

namespace Sys2Proof.Machine

theorem State.invokeTickHook_withEnv (s : State) (e : Env) :
    { s with env := e }.invokeTickHook = { s.invokeTickHook with env := e } := by
  unfold State.invokeTickHook
  split <;> rfl

/-- Settles O36: the first branch of each command is the stub, and the TICK has no receive part. -/
theorem txOnlyReceiveCommandsAreStubs : Obligations.TxOnlyReceiveCommandsAreStubs := by
  intro s htx
  refine ⟨exec_available_of_txOnly htx, ?_, ?_, ?_, ?_, ⟨_, takeTick_of_off (.inl htx), by simp⟩, fun l => ?_⟩
  · simp [exec, execRead, htx, rspNone]
  · simp [exec, execPeek, htx, rspNone]
  · simp [exec, execRxEnable, htx, rspDone]
  · simp [exec, execRxDisable, htx, rspDone]
  · rw [takeTick_of_off (s := { s with env := { s.env with line := l } }) (.inl htx), takeTick_of_off (.inl htx),
      onNext_next, State.invokeTickHook_env]
    exact congrArg Host.Outcome.next (State.invokeTickHook_withEnv (s.withTx (txTick s.cfg s.tx)) _)

end Sys2Proof.Machine
end

section
/-! SUPPORT. Who writes the receive side: READ, RX_ENABLE, RX_DISABLE, END and the TICK of an enabled receiver
(42_receive.md R140, R150). -/

namespace Sys2Proof.Machine

variable {s t : State}

/-- What an evaluation can do to the receive side. -/
theorem exec_rx_cases {i : Instr} (h : exec i s = .next t) :
    t.rx = s.rx ∨
    (i = .read ∧ s.rx.inIdx ≠ s.rx.outIdx ∧ t.rx = { s.rx with outIdx := nextSlot s.cfg s.rx.outIdx }) ∨
    (i = .rxEnable ∧ t.rx = s.rx.enable) ∨
    ((i = .rxDisable ∨ i = .endCmd) ∧ s.rx.busy = false ∧ t.rx = s.rx.disable) := by
  cases i with
  | flush | senseBegin =>
    cases h
    unfold State.whenTxIdle
    split <;> exact .inl (by simp)
  | enqueue d =>
    rw [exec_enqueue] at h
    split at h <;> cases h <;> exact .inl rfl
  | available =>
    obtain ⟨v, rfl⟩ := exec_snapshot_next (by simp) h
    exact .inl rfl
  | peek =>
    obtain ⟨v, rfl⟩ := exec_peek_next h
    exact .inl rfl
  | read =>
    obtain ⟨v, rfl⟩ | ⟨v, -, hunread, rfl⟩ := exec_read_next h
    · exact .inl rfl
    · exact .inr (.inl ⟨rfl, hunread, rfl⟩)
  | rxEnable =>
    simp only [exec, execRxEnable] at h
    split at h <;> cases h
    · exact .inl rfl
    · exact .inr (.inr (.inl ⟨rfl, rfl⟩))
  | rxDisable =>
    simp only [exec, execRxDisable, State.whenRxIdle, State.spin_eq_spun] at h
    split at h
    · cases h; exact .inl rfl
    · split at h <;> cases h
      · exact .inl rfl
      · exact .inr (.inr (.inr ⟨by simp, eq_false_of_ne_true ‹_›, rfl⟩))
  | endCmd =>
    simp only [exec, execEnd, State.whenRxIdle, State.whenTxIdle, State.spin_eq_spun] at h
    split at h
    · split at h <;> cases h
      · exact .inl rfl
      · exact .inr (.inr (.inr ⟨by simp, eq_false_of_ne_true ‹_›, rfl⟩))
    · split at h <;> cases h <;> exact .inl rfl
  | _ => cases h; exact .inl rfl

/-- R150: to disable a disabled receiver with an empty ring again changes nothing. -/
theorem Rx.disable_of_disabled {r : Rx} (hd : r.disabled = true) (hin : r.inIdx = 0) (hout : r.outIdx = 0) :
    r.disable = r := by
  cases r
  simp_all [Rx.disable]

/-- The receive side stays, or only `rx_disabled` is cleared. -/
def Rx.KeptOrEnabled (r r' : Rx) : Prop := r' = r ∨ r' = { r with disabled := false }

/-- R140, R150: a disabled receiver is idle with an empty ring, so READ pops nothing and disabling it again is no
change. -/
theorem exec_rx_of_disabled (h : Inv s) (hd : s.rx.disabled = true) {i : Instr} (he : exec i s = .next t) :
    s.rx.KeptOrEnabled t.rx := by
  have hduplex : s.cfg.txOnly = false := by
    by_contra htx
    rw [h.rx_absent (by simpa using htx)] at hd
    cases hd
  obtain ⟨-, hin, hout⟩ := (h.rx hduplex).disabled_idle hd
  obtain hkept | ⟨-, hunread, -⟩ | ⟨-, hen⟩ | ⟨-, -, hdis⟩ := exec_rx_cases he
  · exact .inl hkept
  · exact absurd (hin.trans hout.symm) hunread
  · exact .inr hen
  · exact .inl (hdis.trans (Rx.disable_of_disabled hd hin hout))

theorem foregroundStep_rx_of_disabled (h : Inv s) (hd : s.rx.disabled = true) (hf : foregroundStep s = .next t) :
    s.rx.KeptOrEnabled t.rx := by
  obtain ⟨-, hs⟩ | ⟨-, -, -, hs⟩ | ⟨w, ws, -, -, -, hs⟩ | ⟨c, p, -, -, hs⟩ :=
    foregroundStep_cases s <;> rw [hs] at hf
  · cases hf; exact .inl rfl
  · cases hf; exact .inl rfl
  · have hport : Inv (s.withPort ws) := h.withOutEnv s.out { s.env with port := ws }
    exact exec_rx_of_disabled (s := s.withPort ws) hport hd hf
  · exact exec_rx_of_disabled h hd hf

/-- R140: no clock edge runs a disabled receiver. -/
theorem clockEdge_rx_of_disabled (hd : s.rx.disabled = true) (hc : clockEdge s = .next t) : t.rx = s.rx := by
  obtain ⟨-, rfl⟩ | ⟨-, -, rfl⟩ | ⟨-, -, -, htick⟩ := clockEdge_next hc
  · rfl
  · rfl
  · rw [takeTick_of_off (s := { s with divCnt := 0 }) (.inr hd)] at htick
    cases htick
    simp

theorem offerWord_rx {w : CmdWord} (h : offerWord w s = .next t) : t.rx = s.rx := by
  unfold offerWord at h
  split at h <;> cases h
  rfl

/-- A stimulus other than reset leaves a disabled receiver alone, or RX_ENABLE clears its flag. -/
theorem react_rx_of_disabled (h : Inv s) (hd : s.rx.disabled = true) {x : Stimulus} (hx : x ≠ .reset)
    (hr : react x s = .next t) : s.rx.KeptOrEnabled t.rx := by
  cases x with
  | clock => exact .inl (clockEdge_rx_of_disabled hd hr)
  | foreground => exact foregroundStep_rx_of_disabled h hd hr
  | hookDone => cases hr; exact .inl (State.hookDone_rx s)
  | offer w => exact .inl (offerWord_rx hr)
  | setLine l => cases hr; exact .inl rfl
  | setExtLow b => cases hr; exact .inl rfl
  | reset => exact absurd rfl hx

/-- Settles O49: a step is its stimulus, and of a disabled receiver no stimulus but reset writes more than the flag. -/
theorem disabledReceiverIsFrozen : Obligations.DisabledReceiverIsFrozen := by
  intro s t h hd hs hx
  obtain ⟨-, u, hu, rfl⟩ := step_next hs
  have hopened : Inv s.opened := h.withOutEnv none _
  exact react_rx_of_disabled (s := s.opened) (t := u) hopened hd hx hu

end Sys2Proof.Machine
end

section
/-! SUPPORT. A running hook body holds the foreground, lets the TICK pass unless it is the tick hook's own, and refuses
a command issued meanwhile; the hook commands write the handle that the next invocation reads (43_hooks.md R170 to R175,
70_reset_and_hazards.md R239). -/

namespace Sys2Proof.Machine

variable {s t : State}

/-! A running hook body. -/

theorem State.hookRuns_iff : s.hookRuns = true ↔ s.tickRun = true ∨ s.idleRun = true := by
  simp [State.hookRuns]

theorem foregroundStep_of_hookRuns (h : s.hookRuns = true) : foregroundStep s = .next s := by
  simp [foregroundStep, h]

theorem offerWord_of_ready_of_hookRuns {w : CmdWord} (hfg : s.fg = .ready) (h : s.hookRuns = true) :
    offerWord w s = .refused (.commandFromHook w) := by
  simp [offerWord, hfg, h]

/-- Settles O14: the four stimuli while a body runs, each by what it does in the opened state. -/
theorem runningHookHoldsOnlyTheForeground : Obligations.RunningHookHoldsOnlyTheForeground := by
  intro s rest hc
  have hstep {x : Stimulus} (hscript : s.env.script = x :: rest) : step s = countStep (react x s.opened) :=
    step_of_stimulus hc (State.stimulus_of_script hscript)
  refine ⟨fun hbody hscript => ?_, fun _ htick hrun htop hscript => ?_, fun hscript => ?_,
    fun w hfg hbody hscript => ?_⟩
  · have hheld : s.opened.hookRuns = true := State.hookRuns_iff.2 hbody
    rw [hstep hscript, react, foregroundStep_of_hookRuns hheld, State.opened_of_script hscript]
    rfl
  · rw [hstep hscript, react, clockEdge_of_due (s := s.opened) hrun htop htick, State.opened_of_script hscript]
  · have hidle : s.opened.hookDone.idleRun = (s.tickRun && s.idleRun) := State.hookDone_idleRun s.opened
    refine ⟨s.opened.hookDone.counted, hstep hscript, State.hookDone_tickRun s.opened, fun htick => ?_,
      fun htick => ?_, ?_⟩
    · rw [State.counted_idleRun, hidle, htick, Bool.false_and]
    · rw [State.counted_idleRun, hidle, htick, Bool.true_and]
    · simp
  · have hheld : s.opened.hookRuns = true := State.hookRuns_iff.2 hbody
    rw [hstep hscript, react, offerWord_of_ready_of_hookRuns (s := s.opened) hfg hheld]
    rfl

/-! The hook commands. -/

/-- R173: the event of a TICK is its hook's, by the handle held when the TICK is taken. -/
theorem takeTick_out (h : takeTick s = .next t) : t.out = hookEvent .tickHook s.tickHook := by
  obtain ⟨r, -, rfl⟩ := takeTick_next.1 h
  simp

/-- R174: the event of a failed attempt of FLUSH is the idle hook's. -/
theorem exec_flush_out_of_busy (hbusy : s.tx.busy = true) :
    ∃ t, exec .flush s = .next t ∧ t.out = hookEvent .idleHook s.idleHook :=
  ⟨s.spun .flush .zero, by rw [exec_flush, if_pos hbusy], State.spun_out ..⟩

theorem exec_setTickHook (h : Handle) (s : State) :
    exec (.setTickHook h) s = .next (State.done { s with tickHook := h } 0x000) := rfl

theorem exec_setIdleHook (h : Handle) (s : State) :
    exec (.setIdleHook h) s = .next (State.done { s with idleHook := h } 0x000) := rfl

/-- Settles O38: the handle that the command has written is the one that the next invocation reads. -/
theorem hookCommandsReplaceTheHandle : Obligations.HookCommandsReplaceTheHandle := by
  intro h s
  refine ⟨exec_setTickHook h s, exec_setIdleHook h s, fun t u hset htick => ?_, fun t hset hbusy => ?_⟩
  · rw [exec_setTickHook] at hset
    cases hset
    exact takeTick_out htick
  · rw [exec_setIdleHook] at hset
    cases hset
    exact exec_flush_out_of_busy hbusy

end Sys2Proof.Machine
end

section
/-! SUPPORT. The pin commands: SENSE_BEGIN behind the wait of FLUSH, SENSE_END at once, and READ_PIN by the rows of
R183's table (44_pin_sense.md R180 to R183). -/

namespace Sys2Proof.Machine

/-! SENSE_BEGIN and SENSE_END. -/

theorem exec_senseBegin (s : State) : exec .senseBegin s =
    .next (if s.tx.busy then s.spun .senseBegin .zero else (s.withTx s.tx.release).done rspDone) := by
  simp only [exec, execSenseBegin, State.whenTxIdle, State.spin_eq_spun, State.respond_eq_done]

theorem exec_senseEnd (s : State) : exec .senseEnd s = .next ((s.withTx s.tx.driveHigh).done rspDone) := rfl

/-- R180 (b): an idle transmitter has nothing left to shift out (R45), so its latch holds the idle level. -/
theorem TxOk.out_of_idle {c : Config} {t : Tx} (h : TxOk c t) (hidle : t.busy = false) : t.out = true := by
  have hempty : t.shift = 0 := by
    by_contra hw
    exact absurd (h.busy_iff.2 (.inr (.inl hw))) (ne_true_of_eq_false hidle)
  exact h.idle_high hempty

/-- Settles O39: `tx_busy` is 0 or 1, and the release of the pin leaves the latch of an idle transmitter. -/
theorem senseBeginReleasesThePinWhenIdle : Obligations.SenseBeginReleasesThePinWhenIdle := by
  intro s
  rw [exec_senseBegin]
  refine ⟨fun hidle => ?_, fun hbusy => by rw [if_pos hbusy], fun hok hidle => ?_⟩
  · rw [if_neg (ne_true_of_eq_false hidle)]
    rfl
  · rw [if_neg (ne_true_of_eq_false hidle)]
    exact ⟨_, rfl, hok.out_of_idle hidle⟩

/-- Settles O40: SENSE_END has one case, whatever `tx_busy` is. -/
theorem senseEndDrivesThePinHigh : Obligations.SenseEndDrivesThePinHigh := exec_senseEnd

/-! READ_PIN, and the rows of R183's table that fix the pad's level. -/

section
variable {s : State}

theorem State.pad_of_driven (hoe : s.tx.oe = true) (hext : s.env.extLow = false) : s.pad = s.tx.out := by
  simp [State.pad, hoe, hext]

theorem State.pad_of_pulledUp (hoe : s.tx.oe = false) (hpu : s.tx.pu = true) (hext : s.env.extLow = false) :
    s.pad = true := by
  simp [State.pad, hoe, hpu, hext]

theorem State.pad_of_pulledLow (hoe : s.tx.oe = false) (hext : s.env.extLow = true) : s.pad = false := by
  cases hpu : s.tx.pu <;> simp [State.pad, hoe, hpu, hext]

theorem exec_readPin {v : Level} (h : s.pad = v) : exec .readPin s = .next (s.done (rspBit v)) := by
  rw [← h]
  rfl

end

/-- Settles O41: each fixed row by the pad's level there, and in every row that level is 0 or 1. -/
theorem readPinAnswersThePadLevel : Obligations.ReadPinAnswersThePadLevel := by
  intro s
  refine ⟨fun hoe _ hext => exec_readPin (State.pad_of_driven hoe hext),
    fun hoe hpu hext => exec_readPin (State.pad_of_pulledUp hoe hpu hext),
    fun hoe hext => exec_readPin (State.pad_of_pulledLow hoe hext), ?_⟩
  cases hpad : s.pad with
  | false => exact .inl (exec_readPin hpad)
  | true => exact .inr (exec_readPin hpad)

end Sys2Proof.Machine
end

section
/-! SUPPORT. Setting the pin's mode commutes with the transmit engine and its commands (44_pin_sense.md R184). -/

namespace Sys2Proof.Machine

/-- The transmit side with (`tx_oe`, `tx_pu`) replaced. -/
def Tx.withPin (t : Tx) (oe pu : Bool) : Tx := { t with oe := oe, pu := pu }

/-- The state with (`tx_oe`, `tx_pu`) replaced. -/
def State.withPin (s : State) (oe pu : Bool) : State := s.withTx (s.tx.withPin oe pu)

variable (c : Config) (t : Tx) (s : State) (oe pu : Bool)

/-- Each of the four outcomes of TxTick (R123) is chosen by and writes queue, shift register, counter,
flag and latch only. -/
theorem txTick_withPin : txTick c (t.withPin oe pu) = (txTick c t).withPin oe pu := by
  by_cases hheld : 1 < t.sub.toNat
  · rw [txTick_of_held hheld]
    exact txTick_of_held (t := t.withPin oe pu) hheld
  have hsub : t.sub.toNat ≤ 1 := Nat.not_lt.1 hheld
  by_cases hw : t.shift = 0
  · cases hq : t.queue with
    | nil =>
      rw [txTick_of_idle hsub hw hq]
      exact txTick_of_idle (t := t.withPin oe pu) hsub hw hq
    | cons b bs =>
      rw [txTick_of_reload hsub hw hq]
      exact txTick_of_reload (t := t.withPin oe pu) hsub hw hq
  · rw [txTick_of_loaded hsub hw]
    exact txTick_of_loaded (t := t.withPin oe pu) hsub hw

theorem exec_flush_withPin :
    exec .flush (s.withPin oe pu) = onNext (fun u => u.withPin oe pu) (exec .flush s) := by
  rw [exec_flush, exec_flush, onNext_next, apply_ite (State.withPin · oe pu)]
  rfl

theorem exec_enqueue_withPin (d : Byte) :
    exec (.enqueue d) (s.withPin oe pu) = onNext (fun u => u.withPin oe pu) (exec (.enqueue d) s) := by
  rw [exec_enqueue, exec_enqueue, onNext_next, apply_ite (State.withPin · oe pu)]
  rfl

/-- Settles O42: the pin's mode is set before or after the tick or the command, with the same result. -/
theorem senseModeDoesNotGateTheTransmitter : Obligations.SenseModeDoesNotGateTheTransmitter := by
  intro s oe pu
  refine ⟨txTick_withPin s.cfg s.tx oe pu, fun i hi => ?_⟩
  obtain rfl | rfl | ⟨d, rfl⟩ := hi
  · exact exec_flush_withPin s oe pu
  · rfl
  · exact exec_enqueue_withPin s oe pu d

end Sys2Proof.Machine
end

section
/-! SUPPORT. The lifecycle commands: BEGIN at once, and END in the two phases of which TX_ONLY skips the first
(45_lifecycle.md R190, R191). -/

namespace Sys2Proof.Machine

theorem exec_beginCmd (s : State) : exec .beginCmd s =
    .next (State.done { s with tx := s.tx.driveHigh, divCnt := 0, timerRun := true } rspDone) := rfl

/-- Settles O43: BEGIN has one case, and what it writes to the pin is what SENSE_END writes. -/
theorem beginArmsTheTimerAndDrivesThePin : Obligations.BeginArmsTheTimerAndDrivesThePin := exec_beginCmd

section
variable {s : State}

/-- R191, phase 0: the wait of RX_DISABLE, after which the command goes on instead of answering. -/
theorem exec_endCmd_of_receivePhase (hphase : s.phase = .zero) (hduplex : s.cfg.txOnly = false) : exec .endCmd s =
    .next (if s.rx.busy then s.spun .endCmd .zero else (s.withRx s.rx.disable).goPhase .endCmd .one) := by
  simp only [exec, execEnd, if_pos (And.intro hphase hduplex), State.whenRxIdle, State.spin_eq_spun]

/-- R191, phase 1, where a TX_ONLY instance begins (log 14): the wait of FLUSH. -/
theorem exec_endCmd_of_transmitPhase (h : s.phase = .one ∨ s.cfg.txOnly = true) : exec .endCmd s =
    .next (if s.tx.busy then s.spun .endCmd .one else s.done rspDone) := by
  have hskip : ¬ (s.phase = .zero ∧ s.cfg.txOnly = false) := by
    rintro ⟨hzero, hduplex⟩
    obtain hone | htx := h
    · cases hzero.symm.trans hone
    · exact absurd htx (ne_true_of_eq_false hduplex)
  simp only [exec, execEnd, if_neg hskip, State.whenTxIdle, State.spin_eq_spun, State.respond_eq_done]

end

/-- Settles O44: in each phase the flag that it waits for is 0 or 1. -/
theorem endDisablesReceiveThenFlushes : Obligations.EndDisablesReceiveThenFlushes := by
  intro s
  refine ⟨fun hphase hduplex hbusy => ?_, fun hphase hduplex hidle => ?_, fun h hbusy => ?_, fun h hidle => ?_⟩
  · rw [exec_endCmd_of_receivePhase hphase hduplex, if_pos hbusy]
  · rw [exec_endCmd_of_receivePhase hphase hduplex, if_neg (ne_true_of_eq_false hidle)]
    rfl
  · rw [exec_endCmd_of_transmitPhase h, if_pos hbusy]
  · rw [exec_endCmd_of_transmitPhase h, if_neg (ne_true_of_eq_false hidle)]
    rfl

end Sys2Proof.Machine
end

section
/-! SUPPORT. The seven build-time errors, each with its condition (60_exceptions.md R201). -/

namespace Sys2Proof

variable {c : Config}

/-- R201's table, row by row. -/
theorem Config.mem_errors_iff {e : ConfigError} : e ∈ c.errors ↔
    (c.f < 3 ∧ e = .oversampleTooSmall) ∨ (170 < c.f ∧ e = .oversampleTooLarge) ∨
    ((c.txOnly = false ∧ 128 < c.nRx) ∧ e = .rxCapacityTooLarge) ∨
    ((c.txOnly = false ∧ c.nRx < 2) ∧ e = .rxCapacityTooSmall) ∨ (c.nTx < 1 ∧ e = .txCapacityZero) ∨
    (c.timerTopMax < c.top ∧ e = .timerTopOutOfRange) ∨
    ((c.divisor = 0 ∨ c.baud = 0 ∨ c.fClk = 0) ∧ e = .timerDivisorZero) := by
  simp only [Config.errors, List.mem_append, List.mem_ite_nil_right, List.mem_singleton, or_assoc]

namespace Machine

theorem instantiate_of_legal (h : c.check = none) : State.instantiate c = .ok (State.resetOf c) := by
  simp [State.instantiate, h]

/-- Settles O6: an error is listed only in its own row, and the check names a listed error if there is one. -/
theorem buildTimeErrorsRejectInstances : Obligations.BuildTimeErrorsRejectInstances := by
  intro c
  refine ⟨?_, ?_, ?_, ?_, ?_, ?_, ?_, fun hnone => ?legal, fun hsome => ?illegal⟩
  case legal => exact instantiate_of_legal (Config.errors_eq_nil_iff_check.1 hnone)
  case illegal =>
    obtain ⟨e, hmem, hcheck⟩ := Config.exists_check_eq_some hsome
    exact ⟨e, hmem, instantiate_of_illegal hcheck⟩
  all_goals simp [Config.mem_errors_iff]

end Machine
end Sys2Proof
end

section
/-! SUPPORT. What an evaluation writes: its ending, and beside it at most the elements named for the command
(60_exceptions.md R212, R218, 10_state.md R44). -/

namespace Sys2Proof.Machine

/-- Settles O12: `exec_cases` lists the endings; the commands that do not respond are blocking, and a ring fault is no
next state. -/
theorem evaluationRespondsSpinsOrChangesPhase : Obligations.EvaluationRespondsSpinsOrChangesPhase := by
  intro i s t h
  obtain ⟨v, u, hu⟩ | ⟨p, hp, hblock, hu⟩ | ⟨hi, hphase, hduplex, -, hu⟩ | ⟨e, -, hu⟩ := exec_cases i s <;>
    rw [hu] at h <;> cases h
  · have hdone : (u.done v).fg = .ready ∧ ∃ w, (u.done v).out = some (.response w) := ⟨rfl, v, rfl⟩
    exact ⟨.inl hdone, fun _ => hdone⟩
  · exact ⟨.inr (.inl ⟨hblock, p, hp, rfl⟩), fun hnot => absurd hblock (ne_true_of_eq_false hnot)⟩
  · exact ⟨.inr (.inr ⟨hi, hphase, hduplex, rfl, rfl⟩), fun hnot => by subst hi; cases hnot⟩

/-- The state with what a command writes when it acts; its ending is not in it. -/
def State.written (s : State) : Instr → State
  | .beginCmd => { s with tx := s.tx.driveHigh, divCnt := 0, timerRun := true }
  | .endCmd | .rxDisable => s.withRx s.rx.disable
  | .enqueue d => s.withTx (s.tx.push d).setBusy
  | .read => s.withRx { s.rx with outIdx := nextSlot s.cfg s.rx.outIdx }
  | .rxEnable => s.withRx s.rx.enable
  | .senseBegin => s.withTx s.tx.release
  | .senseEnd => s.withTx s.tx.driveHigh
  | .setTickHook h => { s with tickHook := h }
  | .setIdleHook h => { s with idleHook := h }
  | .flush | .isBusy | .available | .peek | .readPin | .reservedF => s

/-- `t` differs from `u` at most in what an ending writes: the sequencer, the event and the idle hook's body. -/
def State.EndsIn (u t : State) : Prop := ∃ f o b, t = { u with fg := f, out := o, idleRun := b }

namespace State.EndsIn

variable {s u : State}

theorem done (u : State) (v : RspWord) : u.EndsIn (u.done v) := ⟨_, _, u.idleRun, rfl⟩

theorem spun (u : State) (i : Instr) (p : Phase) : u.EndsIn (u.spun i p) := ⟨_, _, _, rfl⟩

theorem goPhase (u : State) (i : Instr) (p : Phase) : u.EndsIn (u.goPhase i p) := ⟨_, _, u.idleRun, rfl⟩

end State.EndsIn

variable {s t : State}

/-- The waits on `tx_busy` and `rx_busy`, which spin while the flag `b` is 1 and then go on to `t`. -/
theorem spinWhile_endsIn {b : Bool} {i : Instr} {p : Phase} {u : State} (hu : s.EndsIn u ∨ (s.written i).EndsIn u) :
    s.EndsIn (if b then s.spun i p else u) ∨ (s.written i).EndsIn (if b then s.spun i p else u) := by
  cases b with
  | true => exact .inl (.spun s i p)
  | false => exact hu

/-- An evaluation that answers a next state ends without writing anything, or after what the command writes. -/
theorem exec_written {i : Instr} (h : exec i s = .next t) : s.EndsIn t ∨ (s.written i).EndsIn t := by
  cases i with
  | flush => rw [exec_flush] at h; cases h; exact spinWhile_endsIn (.inl (.done s _))
  | senseBegin => rw [exec_senseBegin] at h; cases h; exact spinWhile_endsIn (.inr (.done _ _))
  | enqueue d =>
    rw [exec_enqueue] at h
    split at h <;> cases h
    · exact .inl (.spun s _ _)
    · exact .inr (.done _ _)
  | endCmd =>
    by_cases hphase : s.phase = .zero ∧ s.cfg.txOnly = false
    · rw [exec_endCmd_of_receivePhase hphase.1 hphase.2] at h
      cases h
      exact spinWhile_endsIn (.inr (.goPhase _ _ _))
    · have hlate : s.phase = .one ∨ s.cfg.txOnly = true := by
        cases hp : s.phase <;> simp_all
      rw [exec_endCmd_of_transmitPhase hlate] at h
      cases h
      exact spinWhile_endsIn (.inl (.done s _))
  | rxDisable =>
    simp only [exec, execRxDisable, State.whenRxIdle, State.spin_eq_spun] at h
    split at h <;> cases h
    · exact .inl (.done s _)
    · exact spinWhile_endsIn (.inr (.done _ _))
  | rxEnable =>
    simp only [exec, execRxEnable] at h
    split at h <;> cases h
    · exact .inl (.done s _)
    · exact .inr (.done _ _)
  | read =>
    obtain ⟨v, rfl⟩ | ⟨v, -, -, rfl⟩ := exec_read_next h
    · exact .inl (.done s v)
    · exact .inr (.done _ v)
  | available | peek => obtain ⟨v, rfl⟩ := exec_snapshot_next (by simp) h; exact .inl (.done s v)
  | _ => cases h; exact .inr (.done _ _)

/-- Settles O47: an ending writes none of the elements spoken of, and what the command writes is read off
`State.written`. -/
theorem commandsWriteOnlyForegroundState : Obligations.CommandsWriteOnlyForegroundState := by
  intro i s t h
  obtain ⟨f, o, b, rfl⟩ | ⟨f, o, b, rfl⟩ := exec_written h
  · exact ⟨⟨rfl, rfl, rfl, rfl, rfl, rfl, rfl, rfl, rfl, rfl, rfl, fun _ => rfl⟩, fun _ => ⟨rfl, rfl⟩,
      fun _ _ => .inl ⟨rfl, rfl⟩, fun _ _ => ⟨rfl, fun _ => ⟨rfl, rfl⟩⟩, fun _ _ => ⟨rfl, fun _ => rfl, fun _ => rfl⟩,
      fun _ => ⟨rfl, rfl⟩, fun _ => rfl, fun _ => rfl⟩
  · refine ⟨?_, fun henq => ?_, fun d hi => ?_, fun hbegin hend => ?_, fun hdis hend => ?_, fun hbegin => ?_,
      fun hhook => ?_, fun hhook => ?_⟩
    · cases i <;> exact ⟨rfl, rfl, rfl, rfl, rfl, rfl, rfl, rfl, rfl, rfl, rfl, fun _ => rfl⟩
    · cases i with
      | enqueue d => exact absurd rfl (henq d)
      | _ => exact ⟨rfl, rfl⟩
    · subst hi
      exact .inr ⟨rfl, rfl⟩
    · cases i with
      | beginCmd => exact absurd rfl hbegin
      | senseEnd => exact absurd rfl hend
      | senseBegin => exact ⟨rfl, fun hne => absurd rfl hne⟩
      | _ => exact ⟨rfl, fun _ => ⟨rfl, rfl⟩⟩
    · cases i with
      | rxDisable => exact absurd rfl hdis
      | endCmd => exact absurd rfl hend
      | read => exact ⟨rfl, fun hne => absurd rfl hne, fun _ => rfl⟩
      | rxEnable => exact ⟨rfl, fun _ => rfl, fun hne => absurd rfl hne⟩
      | _ => exact ⟨rfl, fun _ => rfl, fun _ => rfl⟩
    · cases i with
      | beginCmd => exact absurd rfl hbegin
      | _ => exact ⟨rfl, rfl⟩
    · cases i with
      | setTickHook a => exact absurd rfl (hhook a)
      | _ => rfl
    · cases i with
      | setIdleHook a => exact absurd rfl (hhook a)
      | _ => rfl

end Sys2Proof.Machine
end

section
/-! SUPPORT. What a TICK writes of the transmit queue and of the ring (60_exceptions.md R212, 20_memory.md R77). -/

namespace Sys2Proof.Machine

variable {c : Config}

/-- TxTick takes at most the front of the queue (R123). -/
theorem txTick_queue (t : Tx) : (txTick c t).queue = t.queue ∨ ∃ b, t.queue = b :: (txTick c t).queue := by
  obtain ⟨-, h⟩ | ⟨-, -, h⟩ | ⟨b, bs, -, hq, h⟩ | ⟨-, h⟩ := txTick_cases c t <;> rw [h]
  · exact .inl rfl
  · exact .inl rfl
  · exact .inr ⟨b, hq⟩
  · exact .inl rfl

/-- TxTick never sets `tx_busy` (R24). -/
theorem busy_of_txTick_busy {t : Tx} (hbusy : (txTick c t).busy = true) : t.busy = true := by
  obtain ⟨-, h⟩ | ⟨-, -, h⟩ | ⟨b, bs, -, -, h⟩ | ⟨-, h⟩ := txTick_cases c t <;> rw [h] at hbusy
  · exact hbusy
  · cases hbusy
  · exact hbusy
  · exact hbusy

/-- A TICK that pushes (R77, R143): an enabled receiver ends a stop window and the ring has room. -/
def State.TickPushes (s : State) : Prop :=
  s.cfg.txOnly = false ∧ s.rx.disabled = false ∧ s.rx.state = .awaitingStopBit ∧ s.rx.sub = 1 ∧
    s.rx.full s.cfg = false

/-- What the receive part of a TICK can do to the ring: nothing, or the push. -/
theorem receivePart_ring_cases {s : State} {r : Rx} (h : s.receivePart = .ok r) :
    (r.buf = s.rx.buf ∧ r.inIdx = s.rx.inIdx) ∨
    (s.TickPushes ∧ r.buf = s.rx.buf.set s.rx.inIdx.toNat s.rx.acc) := by
  obtain ⟨-, rfl⟩ | ⟨hduplex, hen, htick⟩ := receivePart_cases h
  · exact .inl ⟨rfl, rfl⟩
  · obtain hkept | ⟨hstop, hsub, hfull, hbuf, -⟩ := rxTick_ring_cases htick
    · exact .inl hkept
    · exact .inr ⟨⟨hduplex, hen, hstop, hsub, hfull⟩, hbuf⟩

theorem receivePart_frame {s : State} {r : Rx} (h : s.receivePart = .ok r) :
    r.disabled = s.rx.disabled ∧ r.outIdx = s.rx.outIdx := by
  obtain ⟨-, rfl⟩ | ⟨-, -, htick⟩ := receivePart_cases h
  · exact ⟨rfl, rfl⟩
  · exact rxTick_frame htick

/-- Settles O48: the two parts of the TICK, each by what it writes; the transmit part does not touch the receive side. -/
theorem tickWritesOnlyTickState : Obligations.TickWritesOnlyTickState := by
  intro s t ht
  obtain ⟨r, hr, rfl⟩ := takeTick_next.1 ht
  obtain ⟨hdisabled, hout⟩ := receivePart_frame hr
  simp only [State.invokeTickHook_tx, State.invokeTickHook_rx, State.withRx_tx, State.withTx_tx, State.withRx_rx]
  refine ⟨txTick_queue s.tx, busy_of_txTick_busy, txTick_oe _ _, txTick_pu _ _, hdisabled, hout, ?_⟩
  obtain ⟨hbuf, hin⟩ | ⟨hpush, hbuf⟩ := receivePart_ring_cases hr <;> rw [hbuf]
  · exact ⟨fun _ _ => rfl, fun _ => ⟨hin, fun _ => rfl⟩⟩
  · exact ⟨fun a ha => Memory.get_set_other _ _ a _ ha, fun hnot => absurd hpush hnot⟩

end Sys2Proof.Machine
end

section
/-! SUPPORT. Under the invariant every ring access is to a slot that exists, and every one read has been written, so
nothing faults (60_exceptions.md R200, 10_state.md R47). -/

namespace Sys2Proof.Machine

/-- RxTick faults only by a push to an absent slot. -/
theorem rxTick_answers {c : Config} {r : Rx} (hi : r.inIdx.toNat < c.nRx) (level : Level) :
    ∃ r', rxTick c level r = .ok r' := by
  cases hs : r.state with
  | idle => exact ⟨_, by rw [rxTick, hs]⟩
  | inCharacter => exact ⟨_, by rw [rxTick, hs]⟩
  | awaitingStopBit =>
    by_cases hsub : r.sub - 1 = 0
    · have hone : r.sub = 1 := Rx.sub_sub_one_eq_zero_iff.1 hsub
      cases hfull : r.full c with
      | true => exact ⟨_, rxTick_of_stop_full hs hone hfull level⟩
      | false => exact ⟨_, rxTick_of_stop hs hone hfull hi level⟩
    · exact ⟨_, rxTick_of_sub_ne (by simp [hs]) hsub level⟩

namespace Inv

variable {s : State}

/-- R47: the ring is empty, as where it does not exist, or its front slot has been written. -/
theorem empty_or_oldest (h : Inv s) :
    s.rx.inIdx = s.rx.outIdx ∨
    (s.cfg.txOnly = false ∧ s.rx.inIdx ≠ s.rx.outIdx ∧ s.rx.outIdx.toNat < s.cfg.nRx ∧
      ∃ v, s.rx.buf.get s.rx.outIdx.toNat = some v) := by
  cases htx : s.cfg.txOnly with
  | true => exact .inl (by rw [h.rx_absent htx]; rfl)
  | false =>
    by_cases hunread : s.rx.inIdx = s.rx.outIdx
    · exact .inl hunread
    · exact .inr ⟨rfl, hunread, (h.rx htx).out_lt, (h.rx htx).exists_oldest hunread⟩

theorem exec_read_answers (h : Inv s) : ∃ t, Machine.exec .read s = .next t := by
  obtain hempty | ⟨hduplex, hunread, hlt, v, hv⟩ := h.empty_or_oldest
  · exact ⟨_, exec_read_of_empty hempty⟩
  · exact ⟨_, exec_read_of_get hduplex hunread hlt hv⟩

theorem exec_peek_answers (h : Inv s) : ∃ t, Machine.exec .peek s = .next t := by
  obtain hempty | ⟨hduplex, hunread, hlt, v, hv⟩ := h.empty_or_oldest
  · exact ⟨_, exec_peek_of_empty hempty⟩
  · exact ⟨_, exec_peek_of_get hduplex hunread hlt hv⟩

/-- READ and PEEK are the only commands that could fault. -/
theorem exec_answers (h : Inv s) (i : Instr) : ∃ t, Machine.exec i s = .next t := by
  obtain ⟨_, _, hu⟩ | ⟨_, _, _, hu⟩ | ⟨_, _, _, _, hu⟩ | ⟨_, rfl | rfl, _⟩ := exec_cases i s
  · exact ⟨_, hu⟩
  · exact ⟨_, hu⟩
  · exact ⟨_, hu⟩
  · exact h.exec_read_answers
  · exact h.exec_peek_answers

theorem takeTick_answers (h : Inv s) : ∃ t, Machine.takeTick s = .next t := by
  by_cases hoff : s.cfg.txOnly = true ∨ s.rx.disabled = true
  · exact ⟨_, takeTick_of_off hoff⟩
  · simp only [not_or, Bool.not_eq_true] at hoff
    obtain ⟨hduplex, hen⟩ := hoff
    obtain ⟨r, hr⟩ := rxTick_answers (h.rx hduplex).in_lt (s.withTx (txTick s.cfg s.tx)).sampleRx
    have hlisten := State.receivePart_of_listening (s := s.withTx (txTick s.cfg s.tx)) hduplex hen
    exact ⟨_, takeTick_next.2 ⟨r, hlisten.trans hr, rfl⟩⟩

theorem foregroundStep_answers (h : Inv s) : ∃ t, Machine.foregroundStep s = .next t := by
  obtain ⟨-, hs⟩ | ⟨-, -, -, hs⟩ | ⟨w, ws, -, -, -, hs⟩ | ⟨c, p, -, -, hs⟩ := foregroundStep_cases s <;> rw [hs]
  · exact ⟨_, rfl⟩
  · exact ⟨_, rfl⟩
  · exact (h.withOutEnv s.out { s.env with port := ws }).exec_answers (decode w)
  · exact h.exec_answers c

end Inv

variable {s : State}

/-- A TICK is due while the last one's hook body runs (U2). -/
def State.TickOverruns (s : State) : Prop := s.timerRun = true ∧ s.divCnt = s.cfg.top ∧ s.tickRun = true

theorem clockEdge_of_overrun (h : s.TickOverruns) : clockEdge s = .refused .tickOverrun := by
  obtain ⟨hrun, htop, hbody⟩ := h
  simp [clockEdge, hrun, htop, hbody]

theorem Inv.clockEdge_answers (h : Inv s) (hfree : ¬s.TickOverruns) : ∃ t, Machine.clockEdge s = .next t := by
  cases hrun : s.timerRun with
  | false => exact ⟨_, clockEdge_of_stopped hrun⟩
  | true =>
    by_cases htop : s.divCnt = s.cfg.top
    · have hbody : s.tickRun = false := eq_false_of_ne_true fun hb => hfree ⟨hrun, htop, hb⟩
      rw [clockEdge_of_due hrun htop hbody]
      exact (h.withDivCnt hrun (Nat.zero_le _)).takeTick_answers
    · exact ⟨_, clockEdge_of_counting hrun htop⟩

/-- The two stimuli that a state gives no meaning to, with the reason (U2 and log 6, U3 and log 7). -/
inductive State.Misuse (s : State) : Stimulus → Refusal → Prop
  | overrun (h : s.TickOverruns) : s.Misuse .clock .tickOverrun
  | fromHook (w : CmdWord) (hfg : s.fg = .ready) (h : s.hookRuns = true) : s.Misuse (.offer w) (.commandFromHook w)

/-- A stimulus is answered under the invariant, or it is a misuse and refused for that. -/
theorem Inv.react_answers_or_misuse (h : Inv s) (x : Stimulus) :
    (∃ t, Machine.react x s = .next t) ∨ ∃ r, s.Misuse x r ∧ Machine.react x s = .refused r := by
  cases x with
  | clock =>
    by_cases hover : s.TickOverruns
    · exact .inr ⟨_, .overrun hover, clockEdge_of_overrun hover⟩
    · exact .inl (h.clockEdge_answers hover)
  | foreground => exact .inl h.foregroundStep_answers
  | hookDone => exact .inl ⟨_, rfl⟩
  | offer w =>
    by_cases hhook : s.fg = .ready ∧ s.hookRuns = true
    · exact .inr ⟨_, .fromHook w hhook.1 hhook.2, offerWord_of_ready_of_hookRuns hhook.1 hhook.2⟩
    · exact .inl ⟨_, if_neg hhook⟩
  | setLine l => exact .inl ⟨_, rfl⟩
  | setExtLow b => exact .inl ⟨_, rfl⟩
  | reset => exact .inl ⟨_, rfl⟩

theorem Inv.step_answers_or_misuse (h : Inv s) :
    (∃ t, step s = .next t) ∨ ∃ r, s.opened.Misuse s.stimulus r ∧ step s = .refused r := by
  rw [step_of_legal h.legal]
  obtain ⟨t, ht⟩ | ⟨r, hmis, hr⟩ := Inv.react_answers_or_misuse (s := s.opened) (h.withOutEnv none _) s.stimulus
  · exact .inl ⟨t.counted, by rw [ht, countStep]⟩
  · exact .inr ⟨r, hmis, by rw [hr, countStep]⟩

/-- Settles O17: the clock edge is refused, and the refusal is the step's. -/
theorem overrunningTickIsRefused : Obligations.OverrunningTickIsRefused := by
  intro s hc hx hrun htop hbody
  rw [step_of_stimulus hc hx, react, clockEdge_of_overrun (s := s.opened) ⟨hrun, htop, hbody⟩, countStep]

/-- Settles O53: a step is answered or refused for one of the two misuses. -/
theorem noStepFaultsUnderTheInvariant : Obligations.NoStepFaultsUnderTheInvariant := by
  intro s h
  refine ⟨fun e he => ?_, h.exec_answers, h.takeTick_answers, fun r hr => ?_⟩ <;>
    obtain ⟨t, ht⟩ | ⟨r', hmis, hr'⟩ := h.step_answers_or_misuse
  · rw [ht] at he; cases he
  · rw [hr'] at he; cases he
  · rw [ht] at hr; cases hr
  · rw [hr'] at hr
    cases hr
    generalize s.stimulus = x at hmis ⊢
    cases hmis with
    | overrun hover => exact .inl ⟨rfl, rfl, hover⟩
    | fromHook w hfg hbody => exact .inr ⟨w, rfl, rfl, hfg, State.hookRuns_iff.1 hbody⟩

end Sys2Proof.Machine
end

section
/-! SUPPORT. Reset gives every element but `rx_buf` its reset value and abandons the command in progress
(70_reset_and_hazards.md R231). -/

namespace Sys2Proof.Machine

theorem resetValues_resetOf (c : Config) : ResetValues (State.resetOf c) where
  queue := rfl
  shift := rfl
  sub := rfl
  busy := rfl
  out := rfl
  pin := ⟨rfl, rfl⟩
  rx_state := rfl
  rx_regs := ⟨rfl, rfl, rfl, rfl⟩
  rx_busy := rfl
  rx_disabled := rfl
  rx_indices := ⟨rfl, rfl⟩
  timer := rfl
  div := rfl
  hooks := ⟨rfl, rfl⟩
  fg := rfl

/-- The reset values say nothing of the environment. -/
theorem ResetValues.withEnv {s : State} (h : ResetValues s) (e : Env) : ResetValues { s with env := e } := { h with }

/-- Settles O9: a step that asserts reset answers the reset block, with only the environment kept. -/
theorem resetGivesResetValues : Obligations.ResetGivesResetValues := by
  refine ⟨resetValues_resetOf, resetValues_resetOf _, fun s hc hx => ?_⟩
  have hstep : step s = .next s.opened.resetBlock.counted := step_of_stimulus hc hx
  exact ⟨_, hstep, (resetValues_resetOf s.cfg).withEnv _, rfl, rfl⟩

/-- Settles O51: the base case of the invariant, beside O52's step. -/
theorem resetSatisfiesTheInvariant : Obligations.ResetSatisfiesTheInvariant := fun _ => inv_resetOf

end Sys2Proof.Machine
end

section
/-! SUPPORT. A blocking command that waits for the transmitter before BEGIN waits on: its evaluations all fail, and no
TICK comes (70_reset_and_hazards.md R234, 45_lifecycle.md R192). -/

namespace Sys2Proof.Machine

/-- `t` agrees with `s` in all that a wait for the transmitter before BEGIN is read from. -/
structure State.WaitsAs (t s : State) : Prop where
  cfg : t.cfg = s.cfg
  tx : t.tx = s.tx
  timerRun : t.timerRun = s.timerRun
  fg : t.fg = s.fg

namespace BlockedBeforeBegin

variable {s t : State}

theorem of_waitsAs (h : BlockedBeforeBegin s) (ht : t.WaitsAs s) : BlockedBeforeBegin t := by
  unfold BlockedBeforeBegin
  rwa [ht.cfg, ht.tx, ht.timerRun, ht.fg]

/-- The evaluation of each of the four waiting commands fails. -/
theorem exec_eq_spun (h : BlockedBeforeBegin s) :
    ∃ i p, s.fg = .spin i p ∧ exec i s = .next (s.spun i p) := by
  obtain ⟨-, ⟨hfg, hbusy⟩ | ⟨hfg, hbusy⟩ | ⟨hfg, hbusy⟩ | ⟨d, hfg, hfull⟩⟩ := h
  · exact ⟨_, _, hfg, by rw [exec_flush, if_pos hbusy]⟩
  · exact ⟨_, _, hfg, by rw [exec_senseBegin, if_pos hbusy]⟩
  · have hphase : s.phase = .one := by rw [State.phase, hfg]
    exact ⟨_, _, hfg, by rw [exec_endCmd_of_transmitPhase (.inl hphase), if_pos hbusy]⟩
  · exact ⟨_, _, hfg, by rw [exec_enqueue, Tx.len, if_pos hfull]⟩

/-- A foreground step is held by a hook body that runs, or is a failed evaluation. -/
theorem foregroundStep_eq (h : BlockedBeforeBegin s) :
    ∃ i p, s.fg = .spin i p ∧ foregroundStep s = .next (if s.hookRuns then s else s.spun i p) := by
  obtain ⟨i, p, hfg, hexec⟩ := h.exec_eq_spun
  refine ⟨i, p, hfg, ?_⟩
  cases hbody : s.hookRuns with
  | true => exact foregroundStep_of_hookRuns hbody
  | false => simp [foregroundStep, hbody, hfg, hexec]

/-- No stimulus but reset ends the wait: the clock edge brings no TICK, and the foreground only spins. -/
theorem react_waitsAs (h : BlockedBeforeBegin s) {x : Stimulus} (hx : x ≠ .reset) (hr : react x s = .next t) :
    t.WaitsAs s := by
  cases x with
  | clock =>
    rw [react, clockEdge_of_stopped h.1] at hr
    cases hr
    exact ⟨rfl, rfl, rfl, rfl⟩
  | foreground =>
    obtain ⟨i, p, hfg, hstep⟩ := h.foregroundStep_eq
    rw [react, hstep] at hr
    cases hr
    split
    · exact ⟨rfl, rfl, rfl, rfl⟩
    · exact ⟨rfl, rfl, rfl, hfg.symm⟩
  | hookDone => cases hr; exact ⟨s.hookDone_cfg, s.hookDone_tx, s.hookDone_timerRun, s.hookDone_fg⟩
  | offer w =>
    rw [react, offerWord] at hr
    split at hr <;> cases hr
    exact ⟨rfl, rfl, rfl, rfl⟩
  | setLine l => cases hr; exact ⟨rfl, rfl, rfl, rfl⟩
  | setExtLow b => cases hr; exact ⟨rfl, rfl, rfl, rfl⟩
  | reset => exact absurd rfl hx

/-- R174: an evaluation that is not held invokes the idle hook. -/
theorem foregroundStep_out (h : BlockedBeforeBegin s) (hfree : s.hookRuns = false)
    (hf : foregroundStep s = .next t) : t.out = hookEvent .idleHook s.idleHook := by
  obtain ⟨i, p, -, hstep⟩ := h.foregroundStep_eq
  rw [hstep, hfree] at hf
  cases hf
  exact State.spun_out ..

end BlockedBeforeBegin

/-- Settles O50: a step is its stimulus, which leaves the wait as it was. -/
theorem blockingBeforeBeginHangs : Obligations.BlockingBeforeBeginHangs := by
  intro s t h hs hx
  obtain ⟨-, u, hu, rfl⟩ := step_next hs
  have hopened : BlockedBeforeBegin s.opened := h
  have hwait : u.WaitsAs s.opened := hopened.react_waitsAs hx hu
  have hblocked : BlockedBeforeBegin u := hopened.of_waitsAs hwait
  refine ⟨hblocked, hwait.fg, fun hfore htick hidle => ?_⟩
  have hfree : s.opened.hookRuns = false := by simp [State.hookRuns, htick, hidle]
  rw [hfore] at hu
  exact hopened.foregroundStep_out (t := u) hfree hu

end Sys2Proof.Machine
end
